-- ==== Sys2Proof/Word.lean ====
section
/-! DEFINITION. The byte of the control link and of the panel lines. -/

namespace Sys2Proof

/-- One byte, as the serial links carry it (10 Control Link, 12.3 Line frames). -/
abbrev Byte := BitVec 8

/-- A run of bytes, first byte first. -/
abbrev Bytes := List Byte

end Sys2Proof
end

