-- ==== Sys2Proof/Syntax.lean ====
section
/-! DEFINITION. The commands of the block: one constructor for each row of spec/opcode_table.json. -/

namespace Sys2Proof

/-- The two alarm inputs (9.1). -/
inductive AlarmInput where
  | drill
  | general
  deriving DecidableEq, Repr

/-- The commands. A request row carries the tag and the body of its frame; an answer row the line and the whole
frame the panel sent (12.3); a timer row what the timer belongs to. -/
inductive Instr where
  /-- START_UP: the RATE strap (set: high), the raw levels of the two alarm inputs (set: asserted), and the bytes
  the kit store reads from the image before its CRC-32 (none of an image on which nothing has been written). -/
  | startUp (rateHigh drillRaw generalRaw : Bool) (readBack : Bytes)
  /-- LINK_FRAME_RECEIVED: the bytes of the frame, start byte to last CRC byte, or those still missing of it. -/
  | linkFrameReceived (bytes : Bytes)
  | linkGapTimeout
  | linkFrameSent
  | unknownKind (kind tag : Byte) (body : Bytes)
  | zoneSet (tag : Byte) (body : Bytes)
  | panelDeclare (tag : Byte) (body : Bytes)
  | panelWithdraw (tag : Byte) (body : Bytes)
  | guideSet (tag : Byte) (body : Bytes)
  | nodeSet (tag : Byte) (body : Bytes)
  | nodeState (tag : Byte) (body : Bytes)
  | destSet (tag : Byte) (body : Bytes)
  | destDrop (tag : Byte) (body : Bytes)
  | phrasePut (tag : Byte) (body : Bytes)
  | checkpoint (tag : Byte) (body : Bytes)
  /-- ERASE_END: whether the memory finished the erase (R166). -/
  | eraseEnd (finished : Bool)
  /-- WRITE_END: whether the memory finished the write, and the bytes of the image written before the CRC-32. -/
  | writeEnd (finished : Bool) (image : Bytes)
  /-- CHECKPOINT_COMPLETE: the bytes VERIFY reads back from the image before its CRC-32. -/
  | checkpointComplete (readBack : Bytes)
  | timeSet (tag : Byte) (body : Bytes)
  | offsetSet (tag : Byte) (body : Bytes)
  | advance
  | eventPost (tag : Byte) (body : Bytes)
  | eventCancel (tag : Byte) (body : Bytes)
  | eventDrop (tag : Byte) (body : Bytes)
  | bookingAdd (tag : Byte) (body : Bytes)
  | bookingRemove (tag : Byte) (body : Bytes)
  | cabinSet (tag : Byte) (body : Bytes)
  | noticeSet (tag : Byte) (body : Bytes)
  | modeSet (tag : Byte) (body : Bytes)
  | musterRaise (tag : Byte) (body : Bytes)
  | allClear (tag : Byte) (body : Bytes)
  | lineReset (tag : Byte) (body : Bytes)
  | redraw (tag : Byte) (body : Bytes)
  | restart (tag : Byte) (body : Bytes)
  | status (tag : Byte) (body : Bytes)
  | panelRead (tag : Byte) (body : Bytes)
  | eventRead (tag : Byte) (body : Bytes)
  | routeProbe (tag : Byte) (body : Bytes)
  | rotationStep (panel : Nat)
  /-- ALARM_INPUT_CHANGE: the input and the raw level it comes to (set: asserted). -/
  | alarmInputChange (input : AlarmInput) (asserted : Bool)
  | alarmDebounceExpiry (input : AlarmInput)
  | coverageDeadline
  | generalAlertDue (line : Fin 4)
  | generalAlertSent (line : Fin 4)
  | pollDue (panel : Nat)
  | selectAnswer (line : Fin 4) (frame : Bytes)
  | pageAnswer (line : Fin 4) (frame : Bytes)
  | commitAck (line : Fin 4) (frame : Bytes)
  | abortAck (line : Fin 4) (frame : Bytes)
  | pollAnswer (line : Fin 4) (frame : Bytes)
  | probeAnswer (line : Fin 4) (frame : Bytes)
  | answerTimeout (line : Fin 4)
  | strayPanelFrame (line : Fin 4) (frame : Bytes)
  | updateTimeout (panel : Nat)
  | heldSlotRelease (line : Fin 4)
  | sweepStep (line : Fin 4)
  | linkByteReceived (byte : Byte)
  deriving DecidableEq, Repr

end Sys2Proof
end

