-- ==== Sys2Proof/Config.lean ====
section
/-! DEFINITION. The constants the manual fixes, and the free values: what section 12.2 leaves open of a frame's bytes. -/

namespace Sys2Proof.Config

/-- Largest run time, in seconds (R19); reference time has the same limit (R20). -/
def maxSeconds : Nat := 4294967295

/-- Largest ship minute (R21). -/
def maxShipMinute : Nat := 71583628

/-- Longest event, in minutes (R36). -/
def maxEventSpan : Nat := 4320

def maxEvents : Nat := 256
def maxBookings : Nat := 1024
def maxBookingsPerPanel : Nat := 16
def maxTexts : Nat := 8192
def maxTextBytes : Nat := 64

/-- Lead and linger (R36): default and upper limit of each. -/
def defaultLead : Nat := 30
def maxLead : Nat := 240
def defaultLinger : Nat := 15
def maxLinger : Nat := 120

/-- The arrival radius taken when none is given (1.4). -/
def defaultRadius : Nat := 30

/-- Deck costs of R71 and R72. -/
def stairDeckCost : Nat := 30
def liftDeckCost : Nat := 10

/-- Receive queue, clear-to-send threshold and report queue (R154, R159). -/
def rxQueueMax : Nat := 8
def ctsThreshold : Nat := 6
def reportQueueMax : Nat := 64
def counterMax : Nat := 65535

/-- Frame length limits of R152. -/
def minFrameLength : Nat := 2
def maxFrameLength : Nat := 1026

/-- Largest page (R95). -/
def maxPage : Nat := 1024

/-- Intervals of R111, R114 and R117, in milliseconds. -/
def updatingPoll : Nat := 250
def livePollDoor : Nat := 20000
def absentProbe : Nat := 5000
def faultProbe : Nat := 30000
def doorUpdateTime : Nat := 8000
def screenUpdateTime : Nat := 1000

/-- Update slots of a line (R117), misses before FAULT (R118), partial pages before a full one (R93). -/
def slotsPerLine : Nat := 4
def maxMisses : Nat := 3
def maxPartial : Nat := 16

/-- Alarm debounce (R134) and general-alert period (R148), in milliseconds. -/
def debounce : Nat := 200
def alertPeriod : Nat := 10000

/-- Age of a door's last full page before the sweep refreshes it, in milliseconds (R123). -/
def sweepAge : Nat := 72000000

/-- Panels named in a COVERAGE_SHORT report (R147). -/
def shortListMax : Nat := 16

/-! ### Free values (log 39): no statement rests on one, and none is in the state -/

/-- The counts, costs and other numbers of the replies and reports whose width 12.2 does not state. -/
inductive Figure where
  /-- EVENT_STATE: the bookings removed (R34). -/
  | removedBookings
  /-- COVERAGE_COMPLETE (R146). -/
  | completeLive | completeCovered | completeSeconds | completeFaults | completeAbsents
  /-- COVERAGE_SHORT (R147). -/
  | shortLive | shortCovered | shortFaults | shortAbsents | shortMissing
  /-- RESTORE_DONE (R149). -/
  | restoreSeconds
  /-- KIT (R167). -/
  | kitPanels | kitNodes | kitDests | kitTexts
  /-- STATUS: a line (R161). -/
  | linePanels | lineAbsent | lineLive | lineServing | lineUpdating | lineFault | lineQueue | lineSlots | lineHeld
  /-- STATUS: the coverage record (R150). -/
  | recordStart | recordDeadline | recordLive | recordCovered
  /-- STATUS: the other groups (R150, R161). -/
  | panels | alertLines | events | bookings | texts | reports | gaps | crcs | overflows
  /-- PANEL_READ (R162). -/
  | misses | partials | place | quiet | rotationIndex
  /-- EVENT_READ (R163). -/
  | eventBookings
  /-- ROUTE_PROBE (R82). -/
  | portalCost | verticalCost | dx | ds | fine | theta | bearing | heading | relative
  /-- The count that a reply of a kind carries. -/
  | answered (kind : Byte)
  deriving DecidableEq, Repr

/-- The lists of the replies and reports (R82, R88, R147, R162). -/
inductive Listing where
  | missing | guide | pins | dirty | rows | bookings | slots | vias
  deriving DecidableEq, Repr

/-- The fields that take one of two shapes (R63, R82). -/
inductive Choice where
  | target | goal
  deriving DecidableEq, Repr

/-- FREE VALUE. The width of a figure, in bytes. -/
opaque width : Figure → Nat

/-- FREE VALUE. The bytes of a difference, which may be below 0 (R82). -/
opaque differenceBytes : Figure → Int → Bytes

/-- FREE VALUE. How a list of entries is laid out in a reply or a report, given the bytes of each entry. -/
opaque listBytes : Listing → List Bytes → Bytes

/-- FREE VALUE. How one of two shapes is told in a reply, given which it is and its own bytes. -/
opaque choiceBytes : Choice → Nat → Bytes → Bytes

/-- FREE VALUE. The width of a field that takes one of two shapes, in bytes, which it has when it is none (12.2). -/
opaque choiceWidth : Choice → Nat

/-- FREE VALUE. The byte of a deck glyph, UP (true) or DOWN with its count: 12.2 and 12.3 give it no code. -/
opaque glyphByte : Bool → Nat → Byte

/-- FREE VALUE. The kind byte in the header of a report whose rule gives it no kind of its own (CLOCK, KIT). -/
opaque noKindByte : Byte

end Sys2Proof.Config
end

