-- ==== Sys2Proof/Machine/State.lean ====
section
/-! DEFINITION. The state of the controller, as plain data, and its value right after start-up. Each structure belongs to
the block that owns it (00 scope, section 2); the docstrings name the rules that give the fields. -/

namespace Sys2Proof.Machine

/-- A keyed table in its one canonical form: keys strictly rising (`Table.sorted`). -/
abbrev Table (α : Type) := List (Nat × α)

/-- Four like things, one for each panel line. -/
structure Four (α : Type) where
  l0 : α
  l1 : α
  l2 : α
  l3 : α
  deriving DecidableEq, Repr

/-! ### Zone tables (R1 to R18) -/

/-- The five components of a panel's surface (6.1). -/
inductive Comp where
  | plate | notice | agenda | guide | alert
  deriving DecidableEq, Repr

/-- A set of components. -/
structure CompSet where
  plate  : Bool
  notice : Bool
  agenda : Bool
  guide  : Bool
  alert  : Bool
  deriving DecidableEq, Repr

/-- Panel kinds, in the order of 1.4. -/
inductive PanelKind where
  | door | corridor | landing | venue
  deriving DecidableEq, Repr

inductive SweepOrder where
  | sequential | interleaved
  deriving DecidableEq, Repr

/-- The zone parameter record (1.3). Times are in seconds. -/
structure ZoneParams where
  zone             : Nat
  primaryLang      : Nat
  hysteresis       : Nat
  runTime          : Nat
  rest1            : Nat
  rest2            : Nat
  dwell            : Nat
  sweepInterval    : Nat
  sweepOrder       : SweepOrder
  coverageDeadline : Nat
  deriving DecidableEq, Repr

/-- The position of a panel (1.4). -/
structure Position where
  deck     : Nat
  x        : Int
  y        : Int
  quadrant : Nat
  trim     : Int
  radius   : Nat
  deriving DecidableEq, Repr

/-- A panel declaration (1.4). The category mask keeps the bits of its byte: bit n for category n. -/
structure Decl where
  kind        : PanelKind
  fitted      : CompSet
  position    : Option Position
  station     : Nat
  mask        : Byte
  venue       : Option Nat
  ownNode     : Option Nat
  langs       : List Nat
  platePhrase : Nat
  plateText   : Bytes
  deriving DecidableEq, Repr

/-- A pin (1.5). -/
structure Pin where
  dest  : Nat
  arrow : Nat
  via   : Option Nat
  hold  : Bool
  deriving DecidableEq, Repr

inductive NodeKind where
  | stair | lift | zoneDoor
  deriving DecidableEq, Repr

inductive NodeState where
  | opened | closed
  deriving DecidableEq, Repr

/-- The part of a node that belongs to the kit (1.6, R164). -/
structure NodeDef where
  kind     : NodeKind
  deckLo   : Nat
  deckHi   : Nat
  x        : Int
  y        : Int
  initial  : NodeState
  deriving DecidableEq, Repr

/-- An occupied node slot: its kit part and its current state (R12, R65). -/
structure Node where
  spec    : NodeDef
  current : NodeState
  deriving DecidableEq, Repr

inductive DestKind where
  | venue | station | service
  deriving DecidableEq, Repr

/-- The two location forms of a destination (1.7). -/
inductive DestLoc where
  | inZone (deck : Nat) (x y : Int)
  | portals (nodes : List Nat)
  deriving DecidableEq, Repr

/-- An occupied destination slot (1.7). -/
structure Dest where
  kind   : DestKind
  name   : Nat
  loc    : DestLoc
  letter : Option Nat
  deriving DecidableEq, Repr

/-! ### Clock (R19 to R29) -/

structure PendingChange where
  offset    : Int
  effective : Nat
  deriving DecidableEq, Repr

/-- The clock unit. `u` is run time in milliseconds (R19); `m` is the ship minute, none while unset (R21). -/
structure Clock where
  u       : Nat
  r       : Nat
  set     : Bool
  offset  : Int
  change  : Option PendingChange
  m       : Option Nat
  deriving DecidableEq, Repr

inductive NoticeKind where
  | minute | offset | set
  deriving DecidableEq, Repr

inductive ClockCause where
  | offsetSet | advance | timeSet
  deriving DecidableEq, Repr

/-! ### Programme (R30 to R48) -/

inductive EventState where
  | listed | soon | on | ended
  deriving DecidableEq, Repr

structure Event where
  id          : Nat
  venue       : Nat
  category    : Nat
  start       : Nat
  stop        : Nat
  title       : Nat
  lead        : Nat
  linger      : Nat
  featured    : Bool
  bookingOnly : Bool
  cancelled   : Bool
  state       : EventState
  bookings    : Nat
  deriving DecidableEq, Repr

structure Booking where
  panel : Nat
  event : Nat
  deriving DecidableEq, Repr

/-! ### Routes (R63 to R83) -/

/-- What an arrow slot tells the panel (R80). -/
inductive ArrowResult where
  | arrow (n : Nat) | here | noRoute
  deriving DecidableEq, Repr

inductive Glyph where
  | up (decks : Nat) | down (decks : Nat)
  deriving DecidableEq, Repr

/-- The point an arrow leads to (R63): a node, or an in-zone point. -/
inductive Target where
  | node (index : Nat) | point (deck : Nat) (x y : Int)
  deriving DecidableEq, Repr

/-- An arrow slot (R63). -/
structure Slot where
  dest     : Option Nat
  name     : Option Nat
  portal   : Option Nat
  vertical : Option Nat
  target   : Option Target
  prev     : Option Nat
  result   : Option ArrowResult
  glyph    : Option Glyph
  pinned   : Bool
  deriving DecidableEq, Repr

/-! ### Muster levels and modes (R136, R142) -/

inductive Level where
  | normal | drill | muster | restoring
  deriving DecidableEq, Repr

/-- The two levels that a banner, a raise, a broadcast and a coverage record name. -/
inductive AlertLevel where
  | drill | muster
  deriving DecidableEq, Repr

inductive Mode where
  | day | night
  deriving DecidableEq, Repr

/-! ### Content records (R49 to R62, R84 to R101) -/

/-- The draw classes, highest first (6.3). -/
inductive DrawClass where
  | alert | route | content | rotation | upkeep
  deriving DecidableEq, Repr

/-- The DIRTY set: the mark class of each member (R84, R88). -/
structure Marks where
  plate  : Option DrawClass
  notice : Option DrawClass
  agenda : Option DrawClass
  guide  : Option DrawClass
  alert  : Option DrawClass
  deriving DecidableEq, Repr

inductive RowMark where
  | cancelled | now | soon | next
  deriving DecidableEq, Repr

/-- An agenda row (R51). -/
structure Row where
  event     : Nat
  title     : Nat
  venueName : Nat
  hour      : Nat
  minute    : Nat
  mark      : RowMark
  arrow     : Option ArrowResult
  glyph     : Option Glyph
  deriving DecidableEq, Repr

/-- A held notice (R55). -/
structure Notice where
  phrase : Nat
  expiry : Option Nat
  deriving DecidableEq, Repr

/-- The cabin part of a DOOR (R58). -/
structure Cabin where
  occupant : Option Bytes
  lang     : Nat
  dnd      : Bool
  deriving DecidableEq, Repr

/-- The rotation of a screen (R61): the index, and the run time of the next step in milliseconds. -/
structure Rotation where
  index : Nat
  due   : Option Nat
  deriving DecidableEq, Repr

/-- The page of a job (R84), as composed. `removed` keeps the components that a redeclaration has removed from the fitted
set since its composition, which R97 takes out of the shown set at completion (R89; log 38). -/
structure JobPage where
  visible : CompSet
  banner  : Option AlertLevel
  lang    : Nat
  full    : Bool
  removed : CompSet
  deriving DecidableEq, Repr

/-- The shown record (R84). -/
structure Shown where
  set    : CompSet
  banner : Option AlertLevel
  lang   : Option Nat
  held   : CompSet
  deriving DecidableEq, Repr

/-- A content record (R84), with the parts R49, R55, R58 and R61 add. `jobForced` keeps the force-full flag of the
running job, which R93 and R98 read. -/
structure Content where
  inUse     : CompSet
  dirty     : Marks
  inFlight  : CompSet
  jobClass  : Option DrawClass
  jobForced : Bool
  jobPage   : Option JobPage
  shown     : Shown
  rows      : List Row
  notice    : Option Notice
  cabin     : Option Cabin
  rotation  : Option Rotation
  deriving DecidableEq, Repr

/-! ### Lines (R102 to R133) -/

inductive LineState where
  | absent | live | serving | updating | fault
  deriving DecidableEq, Repr

inductive FaultReason where
  | misses | kindMismatch
  deriving DecidableEq, Repr

inductive Rest where
  | active | rest1 | rest2 | rest3
  deriving DecidableEq, Repr

/-- The line part of a panel (R106, R128). Times are run time in milliseconds. `deadline` is the update deadline of
R114 (log 28). -/
structure LinePart where
  state        : LineState
  reason       : Option FaultReason
  miss         : Nat
  nextPoll     : Option Nat
  partialCount : Nat
  lastFull     : Option Nat
  commitTime   : Option Nat
  deadline     : Option Nat
  lastBusy     : Option Bool
  rest         : Rest
  ambient      : Nat
  lastPresence : Option Nat
  origin       : Nat
  brightness   : Option Nat
  deriving DecidableEq, Repr

/-- Everything the controller holds for one declared panel. -/
structure Panel where
  decl        : Decl
  guide       : List Nat
  pins        : List Pin
  guideSlots  : List Slot
  agendaSlots : List Slot
  alertSlot   : Slot
  content     : Content
  line        : LinePart
  deriving DecidableEq, Repr

/-- A draw-queue entry (R109). -/
structure Entry where
  panel : Nat
  cls   : DrawClass
  full  : Bool
  deriving DecidableEq, Repr

/-- An agenda row as a page carries it (R94). -/
structure PageRow where
  title  : Bytes
  venue  : Bytes
  hour   : Nat
  minute : Nat
  mark   : RowMark
  arrow  : Option ArrowResult
  glyph  : Option Glyph
  help   : Option Bytes
  deriving DecidableEq, Repr

/-- A guide line as a page carries it (R94). -/
structure PageLine where
  name   : Bytes
  result : Option ArrowResult
  glyph  : Option Glyph
  help   : Option Bytes
  deriving DecidableEq, Repr

/-- One language of the muster page (R94, R143). -/
structure AlertText where
  station      : Bytes
  help         : Option Bytes
  instructions : List Bytes
  deriving DecidableEq, Repr

/-- The sections of a page (R94); `PageSection.bytes` forms their bytes. -/
inductive PageSection where
  | plate (text phrase occupant : Bytes) (dnd : Bool)
  | notice (text : Bytes)
  | agenda (rows : List PageRow)
  | guide (lines : List PageLine)
  | alert (letter : Option Nat) (result : Option ArrowResult) (glyph : Option Glyph) (texts : List AlertText)
  deriving DecidableEq, Repr

/-- A page: its header but for the brightness, which the line unit writes (R171), and its sections. -/
structure Page where
  visible  : CompSet
  carried  : CompSet
  banner   : Option AlertLevel
  lang     : Nat
  full     : Bool
  length   : Nat
  sections : List PageSection
  deriving DecidableEq, Repr

/-- The frame of an exchange (7.1). `select true` is a probe (R120). -/
inductive LineFrame where
  | select (probe : Bool)
  | page (p : Page) (brightness : Nat)
  | commit
  | poll (brightness : Nat)
  | abort
  | generalAlert (level : AlertLevel)
  deriving DecidableEq, Repr

/-- The exchange in flight (R102). `orphan` is set when its panel has been withdrawn since (R126), `missed` when an
answer has come that is not good, so that only the timeout ends it (log 14); a broadcast has panel 127, the broadcast
drop. -/
structure Exchange where
  frame  : LineFrame
  panel  : Nat
  orphan : Bool
  missed : Bool
  deriving DecidableEq, Repr

/-- The job that holds the line (R112). `brightness` is that of the page last sent (R133), `door` whether the panel is
a DOOR, `orphan` set when the panel has been withdrawn (R126). -/
structure Job where
  panel      : Nat
  door       : Bool
  needFulls  : Nat
  brightness : Option Nat
  orphan     : Bool
  deriving DecidableEq, Repr

/-- A line unit (section 7). -/
structure LineUnit where
  queue    : List Entry
  exch     : Option Exchange
  job      : Option Job
  slots    : Nat
  held     : List Nat
  sweepK   : Nat
  sweepDue : Option Nat
  alert    : Option AlertLevel
  deriving DecidableEq, Repr

/-! ### Muster unit (R134 to R151) -/

structure AlarmIn where
  raw      : Bool
  reading  : Bool
  debounce : Option Nat
  latch    : Bool
  deriving DecidableEq, Repr

/-- The coverage record (R144). -/
structure Coverage where
  level    : AlertLevel
  start    : Nat
  deadline : Nat
  live     : Nat
  covered  : Nat
  complete : Bool
  short    : Bool
  deriving DecidableEq, Repr

structure Muster where
  drill        : AlarmIn
  general      : AlarmIn
  level        : Level
  mode         : Mode
  saved        : Mode
  coverage     : Option Coverage
  alertDue     : Four (Option Nat)
  restoreStart : Option Nat
  deriving DecidableEq, Repr

/-! ### Kit store (R164 to R168) -/

structure KitPanel where
  decl  : Decl
  guide : List Nat
  pins  : List Pin
  deriving DecidableEq, Repr

/-- The kit (R164). -/
structure Kit where
  params  : ZoneParams
  panels  : Table KitPanel
  nodes   : Table NodeDef
  dests   : Table Dest
  phrases : Table Bytes
  deriving DecidableEq, Repr

/-- The stored image (R164): erased; not valid, erased or written in part or found to fail its check; or written
whole, with the four bytes stored after its contents, the CRC-32 low byte first (R169). -/
inductive Image where
  | erased
  | bad
  | written (kit : Kit) (crc : Bytes)
  deriving DecidableEq, Repr

inductive KitState where
  | loaded | invalid
  deriving DecidableEq, Repr

inductive KitFault where
  | empty | check
  deriving DecidableEq, Repr

inductive Stage where
  | erase | write | verify
  deriving DecidableEq, Repr

structure Checkpoint where
  snapshot : Kit
  stage    : Stage
  deriving DecidableEq, Repr

structure Store where
  image      : Image
  kitState   : KitState
  checkpoint : Option Checkpoint
  fault      : Bool
  deriving DecidableEq, Repr

/-! ### Link unit (R152 to R163) -/

/-- A request frame in the receive queue (10.1): its kind, tag and body. -/
structure Frame where
  kind : Byte
  tag  : Byte
  body : Bytes
  deriving DecidableEq, Repr

/-- The receiver (R152): HUNT; LENGTH with the length bytes taken; FRAME with both length bytes and the bytes taken
after them. -/
inductive Rx where
  | hunt
  | length (got : Bytes)
  | frame (lo hi : Byte) (got : Bytes)
  deriving DecidableEq, Repr

/-- Result codes (10.4). -/
inductive Code where
  | done | adjusted | deferred
  | unknownKind | badLength | badValue | notFound | tableFull | fitRule | eventClosed
  | storeBusy | lineHeld | levelLower | notInMuster | storeFail | inUse
  deriving DecidableEq, Repr

inductive PanelReport where
  | joined | recovered | fault
  deriving DecidableEq, Repr

inductive GuestKind where
  | dndOn | dndOff | makeUp
  deriving DecidableEq, Repr

inductive GuestSource where
  | host | button
  deriving DecidableEq, Repr

inductive EventReport where
  | advanced | skipped | removed
  deriving DecidableEq, Repr

inductive LevelCause where
  | drillInput | generalInput | hostRaise | allClear
  deriving DecidableEq, Repr

/-- The reports (10.5), each with the fields its rule names, in that order; `Report.frame` forms their bytes (12.2).
Times `u` are whole seconds. -/
inductive Report where
  /-- R108; `reported` is the kind byte of an answer of the wrong kind (log 31). -/
  | panelState (panel : Nat) (kind : PanelReport) (reason : Option FaultReason) (reported : Option Byte) (u : Nat)
  /-- R60 -/
  | guestRequest (kind : GuestKind) (panel : Nat) (source : GuestSource) (m : Option Nat) (u : Nat)
  /-- R34 -/
  | eventState (kind : EventReport) (event : Nat) (old new : EventState) (m : Nat) (cause : NoticeKind)
      (cancelled : Bool) (bookingsRemoved : Nat)
  /-- R27 -/
  | clock (cause : ClockCause) (r : Nat) (oldOffset newOffset : Int) (newM : Option Nat) (set : Bool)
  /-- R149, kind INPUT -/
  | musterInput (u : Nat) (input : AlarmInput) (reading latchDrill latchGeneral : Bool)
  /-- R149, kind LEVEL -/
  | musterLevel (u : Nat) (old new : Level) (cause : LevelCause) (latchDrill latchGeneral : Bool) (mode saved : Mode)
      (epoch : Nat)
  /-- R146 -/
  | coverageComplete (u : Nat) (level : AlertLevel) (live covered seconds faults absents : Nat)
  /-- R147 -/
  | coverageShort (u : Nat) (level : AlertLevel) (live covered faults absents missing : Nat) (ids : List Nat)
  /-- R149, kind RESTORE_DONE -/
  | restoreDone (u seconds : Nat)
  /-- R167 -/
  | kit (state : KitState) (panels nodes dests texts : Nat) (reason : Option KitFault)
  deriving DecidableEq, Repr

/-- OFFSET_SET outcomes (R26). -/
inductive OffsetOutcome where
  | applied | pending
  deriving DecidableEq, Repr

/-- How far a route computation went (R82). -/
inductive RouteStage where
  | noPosition | noPortal | noVertical | ownNode | here | arrow
  deriving DecidableEq, Repr

/-- The goal of a route (R71, R82): the in-zone point, or the portal node with its cost. -/
inductive Goal where
  | point (deck : Nat) (x y : Int)
  | portal (node cost : Nat)
  deriving DecidableEq, Repr

/-- The figures of an arrow computation (R75 to R77, R82). -/
structure ArrowCalc where
  fine     : Nat
  theta    : Nat
  bearing  : Nat
  heading  : Nat
  relative : Nat
  raw      : Nat
  prevUsed : Option Nat
  kept     : Bool
  computed : Nat
  deriving DecidableEq, Repr

/-- Every figure of a route computation (R82); the fields of later stages are none. -/
structure RouteCalc where
  stage      : RouteStage
  goal       : Option Goal
  vertical   : Option (Nat × Nat)
  target     : Option Target
  targetXY   : Option (Int × Int)
  glyph      : Option Glyph
  delta      : Option (Int × Int)
  figures    : Option ArrowCalc
  pinApplied : Bool
  result     : ArrowResult
  deriving DecidableEq, Repr

/-- Per line, what STATUS shows (R161). -/
structure LineStatus where
  declared : Nat
  absent   : Nat
  live     : Nat
  serving  : Nat
  updating : Nat
  fault    : Nat
  queue    : Nat
  slots    : Nat
  held     : Nat
  job      : Option Nat
  deriving DecidableEq, Repr

/-- The coverage record as STATUS shows it (R150). -/
structure CoverageStatus where
  level        : AlertLevel
  sinceStart   : Nat
  toDeadline   : Nat
  live         : Nat
  covered      : Nat
  complete     : Bool
  short        : Bool
  deriving DecidableEq, Repr

/-- The STATUS reply (R161, R28, R150). -/
structure StatusReply where
  zone             : Nat
  kitState         : KitState
  fault            : Bool
  checkpoint       : Bool
  r                : Nat
  u                : Nat
  clockSet         : Bool
  offset           : Int
  m                : Option Nat
  change           : Option PendingChange
  drillReading     : Bool
  drillLatch       : Bool
  generalReading   : Bool
  generalLatch     : Bool
  level            : Level
  mode             : Mode
  saved            : Mode
  coverage         : Option CoverageStatus
  declared         : Nat
  alertLines       : Nat
  epoch            : Nat
  events           : Nat
  bookings         : Nat
  texts            : Nat
  lines            : Four LineStatus
  reports          : Nat
  lost             : Bool
  gapCount         : Nat
  crcCount         : Nat
  overflowCount    : Nat
  deriving DecidableEq, Repr

/-- The views of PANEL_READ (R162). Times are whole seconds. -/
inductive PanelView where
  | ident (decl : Decl) (line drop : Nat) (guide : List Nat) (pins : List Pin)
  | content (fitted inUse visible : CompSet) (dirty : Marks) (inFlight : CompSet) (jobClass : Option DrawClass)
      (jobPage : Option JobPage) (shown : Shown) (rows : List Row) (notice : Option Notice) (cabin : Option Cabin)
      (bookings : List Nat) (rotation : Option (Nat × Option Nat × Option Nat))
  | link (state : LineState) (reason : Option FaultReason) (miss : Nat) (nextPoll : Option Nat) (partialCount : Nat)
      (lastFull commitTime : Option Nat) (lastBusy : Option Bool) (entry : Option (DrawClass × Bool × Nat))
      (rest : Rest) (ambient : Nat) (lastPresence : Option Nat) (quiet : Nat) (brightness : Option Nat)
  | route (epoch : Nat) (barred : Bool) (slots : List Slot) (pins : List (Option Nat × Option NodeState))
  deriving DecidableEq, Repr

/-- The fields a reply carries after its result code, as the request's own rule names them (R156); `Reply.frame` forms
their bytes (12.2). -/
inductive ReplyBody where
  | empty
  /-- R4: hysteresis, run, rest1, rest2, dwell, sweep interval, coverage deadline as taken. -/
  | zone (hysteresis runTime rest1 rest2 dwell sweepInterval coverageDeadline : Nat)
  /-- R2, R8: fitted set, trim and radius as taken. -/
  | declare (fitted : CompSet) (trim : Option Int) (radius : Option Nat)
  /-- R65 -/
  | changed (flag : Bool)
  /-- R26 -/
  | offset (outcome : OffsetOutcome) (replaced : Bool) (offset : Int)
  /-- R36 -/
  | event (lead linger : Nat) (state : EventState) (replaced : Bool)
  /-- R40, R56, R124, R125: a count. -/
  | count (n : Nat)
  /-- R44 -/
  | removed (flag : Bool)
  | status (r : StatusReply)
  | panel (panel : Nat) (view : PanelView)
  /-- R163: the record read; none is the end flag set. -/
  | eventRecord (e : Option Event)
  /-- R82 -/
  | probe (epoch : Nat) (barred : Bool) (route : RouteCalc)
  deriving DecidableEq, Repr

structure Reply where
  kind : Byte
  tag  : Byte
  code : Code
  body : ReplyBody
  deriving DecidableEq, Repr

/-- A report or reply with its creation stamp (R158). -/
structure Stamped (α : Type) where
  stamp : Nat
  item  : α
  deriving DecidableEq, Repr

/-- The frame now being sent (R158): a report with the lost flag of its header (R159), the reply of a request, or a
late checkpoint reply. -/
inductive TxFrame where
  | report (lost : Bool) (r : Report)
  | reply (r : Reply)
  | checkpointReply (r : Reply)
  deriving DecidableEq, Repr

/-- The link unit (section 10). `stamp` is the model's own creation counter (log 11); `rateHigh` is the strap as sampled
(log 26); `lateReplies` are the checkpoint replies not yet sent (log 12). -/
structure Link where
  rateHigh      : Bool
  rx            : Rx
  queue         : List Frame
  cts           : Bool
  running       : Option Frame
  waiting       : Option (Stamped Reply)
  checkpointTag : Option Byte
  lateReplies   : List (Stamped Reply)
  tx            : Option TxFrame
  reports       : List (Stamped Report)
  lost          : Bool
  gapCount      : Nat
  crcCount      : Nat
  overflowCount : Nat
  stamp         : Nat
  deriving DecidableEq, Repr

/-- The controller, and the queue of commands that wait. -/
structure State where
  params   : ZoneParams
  nodes    : Table Node
  dests    : Table Dest
  phrases  : Table Bytes
  panels   : Table Panel
  clock    : Clock
  events   : List Event
  bookings : List Booking
  epoch    : Nat
  lines    : Four LineUnit
  muster   : Muster
  link     : Link
  store    : Store
  pending  : List Instr
  deriving DecidableEq, Repr

/-- Reasons a step can stop with a fault. The block has no machine fault (a request that breaks a rule is answered with
a result code, a silent panel enters a line state), so nothing raises one: a type without constructors, which is safe. -/
inductive Fault where
  deriving DecidableEq, Repr

/-- Reasons a step can be refused. -/
inductive Refusal where
  /-- Raised by no arm of `exec`: every command of the table has its meaning. Safe: the machine would stop. -/
  | notModelled (mnemonic : String)
  deriving DecidableEq, Repr

/-- The defaults of the zone parameters (1.3, R3). -/
def ZoneParams.initial : ZoneParams :=
  { zone := 0, primaryLang := 0, hysteresis := 4, runTime := 60, rest1 := 300, rest2 := 1800, dwell := 10,
    sweepInterval := 60, sweepOrder := .interleaved, coverageDeadline := 60 }

/-- The clock unit at start-up (R29). -/
def Clock.initial : Clock := { u := 0, r := 0, set := false, offset := 0, change := none, m := none }

/-- A line unit at start-up (7.9.1). -/
def LineUnit.initial : LineUnit :=
  { queue := [], exch := none, job := none, slots := 0, held := [], sweepK := 0, sweepDue := none, alert := none }

/-- An alarm input at start-up: the debounce starts at U = 0 for a raw level that is asserted (R134, R151). -/
def AlarmIn.initial (raw : Bool) : AlarmIn :=
  { raw := raw, reading := false, debounce := if raw then some 0 else none, latch := false }

/-- The muster unit at start-up (R151). -/
def Muster.initial (drillRaw generalRaw : Bool) : Muster :=
  { drill := .initial drillRaw, general := .initial generalRaw, level := .normal, mode := .day, saved := .day,
    coverage := none, alertDue := ⟨none, none, none, none⟩, restoreStart := none }

/-- The link unit at start-up, before the KIT report (R153, R154, R160). DESIGN CHOICE: the creation stamp starts at 0
(log 11). -/
def Link.initial (rateHigh : Bool) : Link :=
  { rateHigh := rateHigh, rx := .hunt, queue := [], cts := true, running := none, waiting := none,
    checkpointTag := none, lateReplies := [], tx := none, reports := [], lost := false, gapCount := 0, crcCount := 0,
    overflowCount := 0, stamp := 0 }

/-- The controller right after start-up (R167) with an image that has never been written: the tables empty, the kit
INVALID with reason EMPTY, FAULT asserted, and the KIT report taken by the free transmitter at once (R158). DESIGN
CHOICE: the image is erased, the RATE strap low and both alarm inputs deasserted (log 4). -/
def State.reset : State :=
  { params := .initial, nodes := [], dests := [], phrases := [], panels := [], clock := .initial, events := [],
    bookings := [], epoch := 0, lines := ⟨.initial, .initial, .initial, .initial⟩, muster := .initial false false,
    link := { Link.initial false with tx := some (.report false (.kit .invalid 0 0 0 0 (some .empty))), stamp := 1 },
    store := { image := .erased, kitState := .invalid, checkpoint := none, fault := true },
    pending := [] }

end Sys2Proof.Machine
end

