-- ==== Sys2Proof/Machine/Flags.lean ====
section
/-! DEFINITION. The set-like state of the content unit: component sets, mark classes, and what follows from them
(sections 6.1 to 6.4). -/

namespace Sys2Proof.Machine

/-! ### Component sets -/

/-- The empty set. -/
def CompSet.nil : CompSet := ⟨false, false, false, false, false⟩

/-- PLATE and ALERT, the visible set of a muster (R87). -/
def CompSet.muster : CompSet := ⟨true, false, false, false, true⟩

def CompSet.has (s : CompSet) : Comp → Bool
  | .plate => s.plate
  | .notice => s.notice
  | .agenda => s.agenda
  | .guide => s.guide
  | .alert => s.alert

/-- The set whose members satisfy a test. -/
def CompSet.build (f : Comp → Bool) : CompSet := ⟨f .plate, f .notice, f .agenda, f .guide, f .alert⟩

def CompSet.inter (a b : CompSet) : CompSet := .build fun c => a.has c && b.has c
def CompSet.union (a b : CompSet) : CompSet := .build fun c => a.has c || b.has c
def CompSet.diff (a b : CompSet) : CompSet := .build fun c => a.has c && !b.has c

/-- Every member of `a` is a member of `b`. -/
def CompSet.subset (a b : CompSet) : Bool := a.diff b = .nil

/-- The components in ascending order of component number (6.1). -/
def Comp.all : List Comp := [.plate, .notice, .agenda, .guide, .alert]

def CompSet.members (s : CompSet) : List Comp := Comp.all.filter s.has

/-- A set from the byte that carries it: bit n stands for component n, bits 5..7 are not read (12.3; log 19). -/
def CompSet.ofByte (b : Byte) : CompSet :=
  ⟨b.getLsbD 0, b.getLsbD 1, b.getLsbD 2, b.getLsbD 3, b.getLsbD 4⟩

/-! ### Draw classes and marks (6.3) -/

/-- The urgency of a class, ALERT highest (6.3). -/
def DrawClass.rank : DrawClass → Nat
  | .alert => 4
  | .route => 3
  | .content => 2
  | .rotation => 1
  | .upkeep => 0

/-- The higher of two classes. -/
def DrawClass.max (a b : DrawClass) : DrawClass := if a.rank < b.rank then b else a

/-- A mark on a component that may already carry one: the higher class stays (R88). -/
def raiseClass (old : Option DrawClass) (new : DrawClass) : Option DrawClass :=
  match old with
  | none => some new
  | some c => some (c.max new)

/-- The higher of two optional classes. -/
def higherClass (a b : Option DrawClass) : Option DrawClass :=
  match b with
  | none => a
  | some c => raiseClass a c

/-- No component is DIRTY. -/
def Marks.nil : Marks := ⟨none, none, none, none, none⟩

def Marks.get (m : Marks) : Comp → Option DrawClass
  | .plate => m.plate
  | .notice => m.notice
  | .agenda => m.agenda
  | .guide => m.guide
  | .alert => m.alert

/-- The DIRTY set without its classes. -/
def Marks.comps (m : Marks) : CompSet := .build fun c => (m.get c).isSome

/-- Marks given component by component. -/
def Marks.build (f : Comp → Option DrawClass) : Marks := ⟨f .plate, f .notice, f .agenda, f .guide, f .alert⟩

/-- One mark: a component and a class (R88). -/
abbrev Mark := Comp × DrawClass

/-- R88: take a mark. -/
def Marks.add (m : Marks) (k : Mark) : Marks :=
  .build fun c => if c = k.1 then raiseClass (m.get c) k.2 else m.get c

/-- Take a list of marks in order. -/
def Marks.addAll (m : Marks) : List Mark → Marks
  | [] => m
  | k :: ks => (m.add k).addAll ks

/-- The components of `s` leave the DIRTY set with their classes. -/
def Marks.remove (m : Marks) (s : CompSet) : Marks :=
  .build fun c => if s.has c then none else m.get c

/-- The highest class among the DIRTY components of `s`. -/
def Marks.highest (m : Marks) (s : CompSet) : Option DrawClass :=
  Comp.all.foldl (fun a c => if s.has c then higherClass a (m.get c) else a) none

/-- A mark of one class on every component of a set. -/
def CompSet.marks (s : CompSet) (c : DrawClass) : List Mark := s.members.map fun k => (k, c)

/-! ### Levels -/

/-- The level is DRILL or MUSTER. -/
def Level.alarmed : Level → Bool
  | .drill => true
  | .muster => true
  | .normal => false
  | .restoring => false

/-- The banner a level puts on a page (R93). -/
def Level.banner : Level → Option AlertLevel
  | .drill => some .drill
  | .muster => some .muster
  | .normal => none
  | .restoring => none

/-- Rank for raising (9.2). -/
def Level.rank : Level → Nat
  | .normal => 0
  | .restoring => 0
  | .drill => 1
  | .muster => 2

def AlertLevel.level : AlertLevel → Level
  | .drill => .drill
  | .muster => .muster

/-! ### What a panel must show -/

def PanelKind.isScreen : PanelKind → Bool
  | .door => false
  | .corridor => true
  | .landing => true
  | .venue => true

/-- The agenda rows of this kind carry arrows (R52). -/
def PanelKind.hasArrows : PanelKind → Bool
  | .corridor => true
  | .landing => true
  | .door => false
  | .venue => false

/-- The in-use set that the panel's content gives (R85). -/
def Panel.inUseFor (p : Panel) (level : Level) (clockSet : Bool) : CompSet :=
  { plate := true
    notice := p.content.notice.isSome
    agenda := clockSet && !p.content.rows.isEmpty
    guide := !p.guide.isEmpty
    alert := level.alarmed }

/-- R85: the content unit updates the in-use set. -/
def Panel.refresh (p : Panel) (level : Level) (clockSet : Bool) : Panel :=
  { p with content := { p.content with inUse := p.inUseFor level clockSet } }

/-- The visible set V (R87). -/
def Panel.visible (p : Panel) : CompSet :=
  if p.content.inUse.alert then .muster else p.content.inUse.inter p.decl.fitted

/-- Take marks on a panel's components (R88). -/
def Panel.mark (p : Panel) (ms : List Mark) : Panel :=
  { p with content := { p.content with dirty := p.content.dirty.addAll ms } }

/-- The need to draw (R90). -/
def Panel.needsDraw (p : Panel) : Bool :=
  p.visible ≠ p.content.shown.set || p.visible.inter p.content.dirty.comps ≠ .nil

/-- The need class (R90), for a panel that needs drawing. -/
def Panel.needClass (p : Panel) : DrawClass :=
  if p.visible.alert then .alert
  else
    match p.content.dirty.highest p.visible with
    | none => .content
    | some c => if p.visible ≠ p.content.shown.set then c.max .content else c

end Sys2Proof.Machine
end

