-- ==== Sys2Proof/Machine/Ops.lean ====
section
/-! DEFINITION. The shared operations: keyed tables, the two checks, run time, result codes, and the link unit's making
and sending of replies and reports. -/

namespace Sys2Proof.Machine

/-! ### Tables -/

/-- The entry with a key. -/
def Table.look {α : Type} : Table α → Nat → Option α
  | [], _ => none
  | (k, v) :: t, n => if k = n then some v else Table.look t n

/-- Write the entry with a key, keeping the keys rising. -/
def Table.put {α : Type} : Table α → Nat → α → Table α
  | [], n, v => [(n, v)]
  | (k, x) :: t, n, v =>
    if k < n then (k, x) :: Table.put t n v else if k = n then (n, v) :: t else (n, v) :: (k, x) :: t

/-- Remove the entry with a key. -/
def Table.del {α : Type} : Table α → Nat → Table α
  | [], _ => []
  | (k, x) :: t, n => if k = n then t else (k, x) :: Table.del t n

/-- Every key of the table is above `n`, and the keys rise. -/
def Table.above {α : Type} : Table α → Nat → Bool
  | [], _ => true
  | (k, _) :: t, n => decide (n < k) && Table.above t k

/-- The one canonical form: keys strictly rising. -/
def Table.sorted {α : Type} : Table α → Bool
  | [] => true
  | (k, _) :: t => Table.above t k

/-- Apply a function to every entry. -/
def Table.mapVals {α β : Type} (f : Nat → α → β) : Table α → Table β
  | [] => []
  | (k, v) :: t => (k, f k v) :: Table.mapVals f t

/-- Some entry satisfies a test. -/
def Table.exists? {α : Type} (t : Table α) (f : Nat → α → Bool) : Bool := t.any fun e => f e.1 e.2

/-- How many entries satisfy a test. -/
def Table.count {α : Type} (t : Table α) (f : Nat → α → Bool) : Nat := (t.filter fun e => f e.1 e.2).length

/-! ### The four lines -/

def Four.get {α : Type} (x : Four α) : Fin 4 → α
  | 0 => x.l0
  | 1 => x.l1
  | 2 => x.l2
  | 3 => x.l3

def Four.set {α : Type} (x : Four α) (i : Fin 4) (v : α) : Four α :=
  match i with
  | 0 => { x with l0 := v }
  | 1 => { x with l1 := v }
  | 2 => { x with l2 := v }
  | 3 => { x with l3 := v }

def Four.modify {α : Type} (x : Four α) (i : Fin 4) (f : α → α) : Four α := x.set i (f (x.get i))

/-- The four entries made by a function of the line. -/
def Four.build {α : Type} (f : Fin 4 → α) : Four α := ⟨f 0, f 1, f 2, f 3⟩

/-- The line of a panel id (R6): floor(id / 64). -/
def lineOf (id : Nat) : Fin 4 := ⟨id / 64 % 4, Nat.mod_lt _ (by decide)⟩

/-- The drop of a panel id (R6). -/
def dropOf (id : Nat) : Nat := id % 64

/-! ### Checks (R169) -/

/-- One bit step of the CRC-16: polynomial 0x1021, not reflected. -/
def crc16Bit (c : BitVec 16) : BitVec 16 := if c.getLsbD 15 then (c <<< 1) ^^^ 0x1021#16 else c <<< 1

/-- The CRC-16 register after one byte. -/
def crc16Byte (c : BitVec 16) (b : Byte) : BitVec 16 :=
  let c := c ^^^ (b.setWidth 16 <<< 8)
  crc16Bit (crc16Bit (crc16Bit (crc16Bit (crc16Bit (crc16Bit (crc16Bit (crc16Bit c)))))))

/-- The CRC-16 of a run of bytes: initial value 0xFFFF, no final XOR. -/
def crc16 (bs : Bytes) : BitVec 16 := bs.foldl crc16Byte 0xFFFF#16

/-- One bit step of the CRC-32: reflected polynomial 0xEDB88320. -/
def crc32Bit (c : BitVec 32) : BitVec 32 := if c.getLsbD 0 then (c >>> 1) ^^^ 0xEDB88320#32 else c >>> 1

/-- The CRC-32 register after one byte. -/
def crc32Byte (c : BitVec 32) (b : Byte) : BitVec 32 :=
  let c := c ^^^ b.setWidth 32
  crc32Bit (crc32Bit (crc32Bit (crc32Bit (crc32Bit (crc32Bit (crc32Bit (crc32Bit c)))))))

/-- The CRC-32 of a run of bytes: initial value and final XOR 0xFFFFFFFF. -/
def crc32 (bs : Bytes) : BitVec 32 := bs.foldl crc32Byte 0xFFFFFFFF#32 ^^^ 0xFFFFFFFF#32

/-- A frame's CRC-16 placed after its bytes, low byte first (R169). -/
def crc16Bytes (bs : Bytes) : Bytes := [(crc16 bs).setWidth 8, (crc16 bs >>> 8).setWidth 8]

/-- The CRC-32 of an image as it is stored after its bytes, low byte first (R169). -/
def crc32Bytes (bs : Bytes) : Bytes :=
  [(crc32 bs).setWidth 8, (crc32 bs >>> 8).setWidth 8, (crc32 bs >>> 16).setWidth 8, (crc32 bs >>> 24).setWidth 8]

/-! ### Result codes -/

/-- The first check that fails decides the result code (R2, R155). -/
def firstRefusal : List (Bool × Code) → Option Code
  | [] => none
  | (fails, code) :: rest => if fails then some code else firstRefusal rest

/-- Bring a value into its range (4.5, R4). -/
def clamp (lo hi v : Nat) : Nat := if v < lo then lo else if hi < v then hi else v

/-- Is a checkpoint in flight (R2, R165)? -/
def State.busy (s : State) : Bool := s.store.checkpoint.isSome

/-! ### Run time -/

/-- Run time has come to `t`: it is there already, or `t` lies in the present second, and U moves on to it. None when
whole seconds, which ADVANCE brings, lie between (log 3), and beyond the last value of U (R19). -/
def State.reach (s : State) (t : Nat) : Option State :=
  if t ≤ s.clock.u then some s
  else if t / 1000 = s.clock.u / 1000 ∧ t ≤ 1000 * Config.maxSeconds then
    some { s with clock := { s.clock with u := t } }
  else none

/-- Run time in whole seconds, as reports and replies carry it. -/
def State.seconds (s : State) : Nat := s.clock.u / 1000

/-! ### The link unit: the transmitter and the report queue (R158, R159) -/

def Report.isMuster : Report → Bool
  | .musterInput _ _ _ _ _ => true
  | .musterLevel _ _ _ _ _ _ _ _ _ => true
  | .coverageComplete _ _ _ _ _ _ _ => true
  | .coverageShort _ _ _ _ _ _ _ _ => true
  | .restoreDone _ _ => true
  | .panelState _ _ _ _ _ => false
  | .guestRequest _ _ _ _ _ => false
  | .eventState _ _ _ _ _ _ _ _ => false
  | .clock _ _ _ _ _ _ => false
  | .kit _ _ _ _ _ _ => false

/-- Where the transmitter takes its next frame from (R158). -/
inductive TxSource where
  | report (r : Stamped Report) (rest : List (Stamped Report))
  | waiting (r : Stamped Reply)
  | late (r : Stamped Reply) (rest : List (Stamped Reply))
  deriving DecidableEq, Repr

def TxSource.stamp : TxSource → Nat
  | .report r _ => r.stamp
  | .waiting r => r.stamp
  | .late r _ => r.stamp

/-- The earlier created of two frames that wait. -/
def earlier (a b : Option TxSource) : Option TxSource :=
  match a, b with
  | none, b => b
  | a, none => a
  | some x, some y => if y.stamp < x.stamp then some y else some x

/-- The frame created earliest among those that wait (R158). -/
def Link.next (l : Link) : Option TxSource :=
  let fromReports := match l.reports with
    | [] => none
    | r :: rest => some (TxSource.report r rest)
  let fromLate := match l.lateReplies with
    | [] => none
    | r :: rest => some (TxSource.late r rest)
  earlier fromReports (earlier (l.waiting.map TxSource.waiting) fromLate)

/-- The free transmitter begins the frame created earliest. A report leaves the queue and takes the lost flag with it
(R159); a waiting reply stays the waiting reply until it has been sent (R155; log 9). -/
def Link.pump (l : Link) : Link :=
  if l.tx.isSome then l
  else
    match l.next with
    | none => l
    | some (.report r rest) => { l with reports := rest, tx := some (.report l.lost r.item), lost := false }
    | some (.waiting r) => { l with tx := some (.reply r.item) }
    | some (.late r rest) => { l with lateReplies := rest, tx := some (.checkpointReply r.item) }

/-- Remove the oldest report that is not a MUSTER report; none when there is no such report. -/
def dropOldestOther : List (Stamped Report) → Option (List (Stamped Report))
  | [] => none
  | r :: rest => if r.item.isMuster then (dropOldestOther rest).map (r :: ·) else some rest

/-- A report created while the queue holds 64 (R159). -/
def Link.overflowReport (l : Link) (r : Stamped Report) : Link :=
  if r.item.isMuster then
    match dropOldestOther l.reports with
    | some rest => { l with reports := rest ++ [r], lost := true }
    | none => { l with reports := l.reports.drop 1 ++ [r], lost := true }
  else { l with lost := true }

/-- Place a report in the report queue (R159). -/
def Link.enqueue (l : Link) (r : Stamped Report) : Link :=
  if l.reports.length < Config.reportQueueMax then { l with reports := l.reports ++ [r] } else l.overflowReport r

/-- Create a report: it joins the queue, and a free transmitter begins the earliest waiting frame (R158, R159; log 10). -/
def Link.report (l : Link) (r : Report) : Link :=
  (({ l with stamp := l.stamp + 1 } : Link).enqueue ⟨l.stamp, r⟩).pump

/-- Create the reply of the running request (R155, R156, R158). -/
def Link.reply (l : Link) (r : Reply) : Link :=
  ({ l with stamp := l.stamp + 1, running := none, waiting := some ⟨l.stamp, r⟩ } : Link).pump

/-- Create the late reply of a checkpoint (R157). -/
def Link.lateReply (l : Link) (r : Reply) : Link :=
  ({ l with stamp := l.stamp + 1, checkpointTag := none, lateReplies := l.lateReplies ++ [⟨l.stamp, r⟩] } : Link).pump

/-- The report queue emptied (R160): the lost flag is set when a report was discarded. -/
def Link.clearReports (l : Link) : Link := { l with reports := [], lost := l.lost || !l.reports.isEmpty }

/-- A block creates a report (10.5). -/
def State.report (s : State) (r : Report) : State := { s with link := s.link.report r }

/-! ### Tables of the state -/

def State.setPanel (s : State) (id : Nat) (p : Panel) : State := { s with panels := s.panels.put id p }

def State.line (s : State) (i : Fin 4) : LineUnit := s.lines.get i

def State.setLine (s : State) (i : Fin 4) (l : LineUnit) : State := { s with lines := s.lines.set i l }

/-- The panels of a line. -/
def State.panelsOf (s : State) (i : Fin 4) : Table Panel := s.panels.filter fun e => lineOf e.1 = i

/-- Does the line hold a declared panel (R148)? -/
def State.hasPanels (s : State) (i : Fin 4) : Bool := s.panels.exists? fun k _ => lineOf k = i

/-! ### Running a request (R155 to R157) -/

/-- What the owning block answers: the code and fields of the reply, or none for a CHECKPOINT that is accepted. -/
abbrev Answer := Option (Code × ReplyBody)

/-- A refusal code alone (R156). -/
def refuse (s : State) (c : Code) : State × Answer := (s, some (c, .empty))

/-- The clear-to-send output for a queue that holds n frames after one has left (R154). -/
def ctsAfterTake (cts : Bool) (n : Nat) : Bool := if n < Config.ctsThreshold then true else cts

/-- The link unit takes a frame to run (R155): only when no request is running and no reply is waiting. The frame is
the head of the receive queue; a frame that arrives to an empty queue is taken as it arrives (log 2). None when it is
not this frame's turn. -/
def Link.take (l : Link) (f : Frame) : Option Link :=
  if l.running.isSome || l.waiting.isSome then none
  else
    match l.queue with
    | [] => some { l with running := some f }
    | g :: rest =>
      if g = f then some { l with queue := rest, cts := ctsAfterTake l.cts rest.length, running := some f } else none

/-- The kind of the reply to a request kind (R156). -/
def replyKind (k : Byte) : Byte := if k.getLsbD 7 then 0xFF#8 else k + 0x80#8

/-- Run a taken request: length rule, owning block, reply (R155, R156). An accepted CHECKPOINT ends its run without a
reply (R157). -/
def State.runTaken (s : State) (f : Frame) (lengthOk : Bool) (own : State → State × Answer) : State :=
  let (t, a) := if lengthOk then own s else refuse s .badLength
  match a with
  | some (code, fields) => { t with link := t.link.reply ⟨replyKind f.kind, f.tag, code, fields⟩ }
  | none => { t with link := { t.link with running := none } }

/-- Run a request frame when the link unit takes it; otherwise nothing happens (R155; log 1, log 2). -/
def State.request (s : State) (f : Frame) (lengthOk : Bool) (own : State → State × Answer) : State :=
  match s.link.take f with
  | none => s
  | some l => State.runTaken { s with link := l } f lengthOk own

end Sys2Proof.Machine
end

