-- ==== Sys2Proof/Machine/Operands.lean ====
section
/-! DEFINITION. The operand forms: request bodies (12.2, R170) and panel answers (12.3, R171). -/

namespace Sys2Proof.Machine

/-! ### Fields of a body, little-endian -/

def u8 (b : Bytes) (i : Nat) : Nat := (b.getD i 0).toNat

def u16 (b : Bytes) (i : Nat) : Nat := u8 b i + 256 * u8 b (i + 1)

def u32 (b : Bytes) (i : Nat) : Nat := u16 b i + 65536 * u16 b (i + 2)

/-- Two's complement of two bytes. -/
def s16 (b : Bytes) (i : Nat) : Int := if u16 b i < 32768 then (u16 b i : Int) else (u16 b i : Int) - 65536

/-- Bit `n` of byte `i`. -/
def flag (b : Bytes) (i n : Nat) : Bool := (b.getD i 0).getLsbD n

/-- An optional field, absent when all its bytes are 0xFF (12.2). -/
def opt8 (b : Bytes) (i : Nat) : Option Nat := if u8 b i = 0xFF then none else some (u8 b i)
def opt16 (b : Bytes) (i : Nat) : Option Nat := if u16 b i = 0xFFFF then none else some (u16 b i)
def opt32 (b : Bytes) (i : Nat) : Option Nat := if u32 b i = 0xFFFFFFFF then none else some (u32 b i)

/-- `n` bytes from offset `i`. -/
def slice (b : Bytes) (i n : Nat) : Bytes := (b.drop i).take n

/-- The values of `n` single bytes from offset `i`. -/
def bytesAt (b : Bytes) (i n : Nat) : List Nat := (slice b i n).map (·.toNat)

/-- A printable character, 0x20..0x7E (1.4, R58). -/
def printable (c : Byte) : Bool := 0x20 ≤ c.toNat && c.toNat ≤ 0x7E

/-! ### Request kinds (10.4) -/

namespace Kind

def zoneSet : Byte := 0x01
def panelDeclare : Byte := 0x02
def panelWithdraw : Byte := 0x03
def guideSet : Byte := 0x04
def nodeSet : Byte := 0x05
def nodeState : Byte := 0x06
def destSet : Byte := 0x07
def destDrop : Byte := 0x08
def phrasePut : Byte := 0x09
def checkpoint : Byte := 0x0A
def timeSet : Byte := 0x10
def offsetSet : Byte := 0x11
def eventPost : Byte := 0x12
def eventCancel : Byte := 0x13
def eventDrop : Byte := 0x14
def bookingAdd : Byte := 0x15
def bookingRemove : Byte := 0x16
def cabinSet : Byte := 0x17
def noticeSet : Byte := 0x18
def modeSet : Byte := 0x20
def musterRaise : Byte := 0x21
def allClear : Byte := 0x22
def lineReset : Byte := 0x28
def redraw : Byte := 0x29
def restart : Byte := 0x2A
def status : Byte := 0x30
def panelRead : Byte := 0x31
def eventRead : Byte := 0x32
def routeProbe : Byte := 0x33

end Kind

/-- The request catalogue (10.4). -/
def catalogue : List Byte :=
  [Kind.zoneSet, Kind.panelDeclare, Kind.panelWithdraw, Kind.guideSet, Kind.nodeSet, Kind.nodeState, Kind.destSet,
    Kind.destDrop, Kind.phrasePut, Kind.checkpoint, Kind.timeSet, Kind.offsetSet, Kind.eventPost, Kind.eventCancel,
    Kind.eventDrop, Kind.bookingAdd, Kind.bookingRemove, Kind.cabinSet, Kind.noticeSet, Kind.modeSet,
    Kind.musterRaise, Kind.allClear, Kind.lineReset, Kind.redraw, Kind.restart, Kind.status, Kind.panelRead,
    Kind.eventRead, Kind.routeProbe]

/-! ### Length rules (R170) -/

def lengthIs (n : Nat) (b : Bytes) : Bool := b.length = n

/-- PANEL_DECLARE: 26 and the plate text, at most 8 characters. -/
def lengthDeclare (b : Bytes) : Bool := b.length = 26 + u8 b 25 && u8 b 25 ≤ 8

/-- GUIDE_SET: 4 + g + 4 p, at most 3 guide destinations and 4 pins. -/
def lengthGuide (b : Bytes) : Bool := b.length = 4 + u8 b 2 + 4 * u8 b 3 && u8 b 2 ≤ 3 && u8 b 3 ≤ 4

/-- CABIN_SET: 5 and the occupant line. -/
def lengthCabin (b : Bytes) : Bool := b.length = 5 + u8 b 4

/-- PHRASE_PUT: 3 or more. -/
def lengthPhrase (b : Bytes) : Bool := 3 ≤ b.length

/-! ### Named values (12.2: numbered from 0 in the order of the owning rule) -/

def panelKindOf : Nat → Option PanelKind
  | 0 => some .door
  | 1 => some .corridor
  | 2 => some .landing
  | 3 => some .venue
  | _ => none

def PanelKind.code : PanelKind → Nat
  | .door => 0
  | .corridor => 1
  | .landing => 2
  | .venue => 3

def nodeKindOf : Nat → Option NodeKind
  | 0 => some .stair
  | 1 => some .lift
  | 2 => some .zoneDoor
  | _ => none

def nodeStateOf : Nat → Option NodeState
  | 0 => some .opened
  | 1 => some .closed
  | _ => none

def destKindOf : Nat → Option DestKind
  | 0 => some .venue
  | 1 => some .station
  | 2 => some .service
  | _ => none

def sweepOrderOf : Nat → Option SweepOrder
  | 0 => some .sequential
  | 1 => some .interleaved
  | _ => none

def modeOf : Nat → Option Mode
  | 0 => some .day
  | 1 => some .night
  | _ => none

/-- MUSTER_RAISE and GENERAL_ALERT: 1 DRILL, 2 MUSTER (12.2, 12.3). -/
def alertLevelOf : Nat → Option AlertLevel
  | 1 => some .drill
  | 2 => some .muster
  | _ => none

/-! ### Position ranges (R1) -/

def deckOk (d : Nat) : Bool := 1 ≤ d && d ≤ 24
def xOk (x : Nat) : Bool := x ≤ 4095
def yOk (y : Int) : Bool := -400 ≤ y && y ≤ 400

/-- R1: the trim is taken within -16..+16. -/
def clampTrim (t : Int) : Int := if t < -16 then -16 else if 16 < t then 16 else t

/-! ### Panel answers (12.3, R102, R171) -/

/-- A line frame read whole: address, type, payload; none when its start byte, its length or its CRC-16 does not hold
(R102, R169; log 14). -/
def parseLineFrame (f : Bytes) : Option (Nat × Nat × Bytes) :=
  match f with
  | start :: addr :: type :: lo :: hi :: rest =>
    let m := lo.toNat + 256 * hi.toNat
    if start = 0xC3#8 && m ≤ 1024 && rest.length = m + 2
        && rest.drop m = crc16Bytes (addr :: type :: lo :: hi :: rest.take m) then
      some (addr.toNat, type.toNat, rest.take m)
    else none
  | _ => none

/-- The payload of an answer that comes whole from the addressed drop and is of the type called for (R102). -/
def answerFrom (drop type : Nat) (f : Bytes) : Option Bytes :=
  match parseLineFrame f with
  | some (a, t, p) => if a = drop + 0x80 && t = type then some p else none
  | none => none

/-- The two buttons of a door plate (R60). -/
inductive Button where
  | dnd | makeUp
  deriving DecidableEq, Repr

/-- The button events of an answer, in order; a byte other than 1 or 2 is dropped (R171). -/
def buttonsOf : Bytes → List Button
  | [] => []
  | b :: bs =>
    if b = 1#8 then .dnd :: buttonsOf bs else if b = 2#8 then .makeUp :: buttonsOf bs else buttonsOf bs

/-- What every good SELECT and POLL answer hands on (R103, 8.1). -/
structure Readings where
  buttons  : List Button
  presence : Nat
  ambient  : Nat
  deriving DecidableEq, Repr

/-- A SELECT answer (12.3). -/
structure SelectAnswer where
  kind     : Byte
  held     : CompSet
  fresh    : Bool
  readings : Readings
  deriving DecidableEq, Repr

/-- The payload of a SELECT answer, when its length is 6 + e with e at most 8; a set fresh flag empties the held set
(R171). -/
def selectAnswerOf (p : Bytes) : Option SelectAnswer :=
  if p.length = 6 + u8 p 5 && u8 p 5 ≤ 8 then
    some { kind := p.getD 0 0
           held := if flag p 2 0 then .nil else .ofByte (p.getD 1 0)
           fresh := flag p 2 0
           readings := { buttons := buttonsOf (p.drop 6), presence := u8 p 3, ambient := u8 p 4 } }
  else none

/-- A POLL answer (12.3). -/
structure PollAnswer where
  busy     : Bool
  readings : Readings
  deriving DecidableEq, Repr

/-- The payload of a POLL answer, when its length is 4 + e with e at most 8 (R171). -/
def pollAnswerOf (p : Bytes) : Option PollAnswer :=
  if p.length = 4 + u8 p 3 && u8 p 3 ≤ 8 then
    some { busy := flag p 0 0
           readings := { buttons := buttonsOf (p.drop 4), presence := u8 p 1, ambient := u8 p 2 } }
  else none

/-- PAGE answers (12.3). -/
inductive PageAnswer where
  | ok | needFull | bad
  deriving DecidableEq, Repr

/-- The payload of a PAGE answer: one byte 0, 1 or 2; another byte is no answer of the exchange (log 15). -/
def pageAnswerOf : Bytes → Option PageAnswer
  | [b] => if b = 0#8 then some .ok else if b = 1#8 then some .needFull else if b = 2#8 then some .bad else none
  | _ => none

/-- An acknowledgement has no payload (12.3). -/
def ackOf : Bytes → Option Unit
  | [] => some ()
  | _ => none

end Sys2Proof.Machine
end

