-- ==== Sys2Proof/Machine/Routes.lean ====
section
/-! DEFINITION. The route unit: resolving a target, the arrow arithmetic, pins and arrow slots (section 5). -/

namespace Sys2Proof.Machine

/-- What a route computation reads besides the panel: nodes, destinations, hysteresis, and whether lifts are barred
(R69). -/
structure RouteEnv where
  nodes      : Table Node
  dests      : Table Dest
  hysteresis : Nat
  barred     : Bool
  deriving DecidableEq, Repr

def State.routeEnv (s : State) : RouteEnv :=
  { nodes := s.nodes, dests := s.dests, hysteresis := s.params.hysteresis, barred := s.muster.level.alarmed }

/-- |deck - deck'|. -/
def deckDiff (a b : Nat) : Nat := ((a : Int) - (b : Int)).natAbs

/-- |x - x'| + |y - y'|. -/
def planar (x y x' y' : Int) : Nat := (x - x').natAbs + (y - y').natAbs

/-! ### Resolving a target (5.4) -/

/-- The cost of a portal (R71). -/
def portalCost (p : Position) (n : Node) : Nat :=
  planar n.spec.x n.spec.y p.x p.y + Config.stairDeckCost * deckDiff n.spec.deckLo p.deck

/-- The cheaper of two nodes with their costs; among equal costs the lower index (R71, R72). -/
def cheaper (best : Option (Nat × Nat)) (i c : Nat) : Option (Nat × Nat) :=
  match best with
  | none => some (i, c)
  | some (j, d) => if c < d || (c = d && i < j) then some (i, c) else some (j, d)

/-- The usable portal of least cost, with its cost (R71). -/
def choosePortal (e : RouteEnv) (p : Position) : List Nat → Option (Nat × Nat)
  | [] => none
  | i :: is =>
    match e.nodes.look i with
    | some n =>
      if n.current = .opened then cheaper (choosePortal e p is) i (portalCost p n) else choosePortal e p is
    | none => choosePortal e p is

/-- The point of a goal: deck, x, y. -/
def goalPoint (e : RouteEnv) : Goal → Option (Nat × Int × Int)
  | .point d x y => some (d, x, y)
  | .portal i _ => (e.nodes.look i).map fun n => (n.spec.deckLo, n.spec.x, n.spec.y)

/-- The goal of a panel towards a destination (R71). -/
def chooseGoal (e : RouteEnv) (p : Position) (d : Dest) : Option Goal :=
  match d.loc with
  | .inZone k x y => some (.point k x y)
  | .portals ns => (choosePortal e p ns).map fun (i, c) => .portal i c

/-- The weight of one deck for a node's kind (R72). -/
def NodeKind.deckCost : NodeKind → Nat
  | .stair => Config.stairDeckCost
  | .lift => Config.liftDeckCost
  | .zoneDoor => Config.stairDeckCost

/-- Does a node qualify as the vertical node (R72)? -/
def Node.qualifies (n : Node) (barred : Bool) (dp dg : Nat) : Bool :=
  n.spec.kind ≠ .zoneDoor && n.current = .opened
    && n.spec.deckLo ≤ dp && dp ≤ n.spec.deckHi && n.spec.deckLo ≤ dg && dg ≤ n.spec.deckHi
    && !(n.spec.kind = .lift && barred)

/-- The cost of a vertical node (R72). -/
def verticalCost (p : Position) (n : Node) (dg : Nat) (xg yg : Int) : Nat :=
  planar n.spec.x n.spec.y p.x p.y + planar n.spec.x n.spec.y xg yg + n.spec.kind.deckCost * deckDiff dg p.deck

/-- The qualifying node of least cost, with its cost (R72). -/
def chooseVertical (barred : Bool) (p : Position) (dg : Nat) (xg yg : Int) : Table Node → Option (Nat × Nat)
  | [] => none
  | (i, n) :: t =>
    if n.qualifies barred p.deck dg then
      cheaper (chooseVertical barred p dg xg yg t) i (verticalCost p n dg xg yg)
    else chooseVertical barred p dg xg yg t

/-- The deck glyph towards another deck (R73). -/
def deckGlyph (dp dg : Nat) : Glyph := if dp < dg then .up (min (dg - dp) 9) else .down (min (dp - dg) 9)

/-! ### The arrow arithmetic (5.5) -/

/-- The view heading (5.5): (64 quadrant + trim) mod 256. -/
def Position.heading (p : Position) : Nat := ((64 * (p.quadrant : Int) + p.trim) % 256).toNat

/-- The fine angle (R75). -/
def fineAngle (a b : Nat) : Nat := if b ≤ a then 32 * b / a else 32 * a / b

/-- θ (R75). -/
def thetaAngle (a b : Nat) : Nat := if b ≤ a then fineAngle a b else 64 - fineAngle a b

/-- The bearing B (R75). -/
def bearingOf (dx ds : Int) : Nat :=
  let θ := thetaAngle dx.natAbs ds.natAbs
  if 0 ≤ ds then (if 0 ≤ dx then θ else 128 - θ)
  else if dx ≤ 0 then 128 + θ else (256 - θ) % 256

/-- The relative bearing (R76): (B - h) mod 256. -/
def relativeBearing (b h : Nat) : Nat := (b + 256 - h % 256) % 256

/-- The raw arrow (R76). -/
def rawArrow (rb : Nat) : Nat := (rb + 16) % 256 / 32

/-- The circular distance of a relative bearing from an arrow's direction (R77). -/
def arrowDistance (rb p : Nat) : Nat :=
  min ((rb + 256 - 32 * p % 256) % 256) ((32 * p + 256 - rb % 256) % 256)

/-- The computed arrow with every figure (R75 to R77). -/
def arrowCalc (hysteresis heading : Nat) (dx ds : Int) (prev : Option Nat) : ArrowCalc :=
  let b := bearingOf dx ds
  let rb := relativeBearing b heading
  let kept := match prev with
    | some p => decide (arrowDistance rb p ≤ 16 + hysteresis)
    | none => false
  { fine := fineAngle dx.natAbs ds.natAbs
    theta := thetaAngle dx.natAbs ds.natAbs
    bearing := b
    heading := heading
    relative := rb
    raw := rawArrow rb
    prevUsed := prev
    kept := kept
    computed := if kept then prev.getD 0 else rawArrow rb }

/-! ### Pins (5.6) -/

/-- Does a pin hold at the moment (R79)? It yields at DRILL or MUSTER unless marked to hold, and while its via node is
CLOSED. -/
def Pin.holds (pin : Pin) (e : RouteEnv) : Bool :=
  !(e.barred && !pin.hold) &&
    match pin.via with
    | some v => (e.nodes.look v).all fun n => n.current = .opened
    | none => true

/-- The pin that governs a destination (R79). -/
def pinFor (pins : List Pin) (d : Nat) : Option Pin := pins.find? fun pin => pin.dest = d

/-- The arrow a slot shows: the pin's where a pin governs and holds, the computed one otherwise (R79). -/
def pinnedArrow (e : RouteEnv) (pins : List Pin) (d computed : Nat) : Nat × Bool :=
  match pinFor pins d with
  | some pin => if pin.holds e then (pin.arrow, true) else (computed, false)
  | none => (computed, false)

/-! ### One computation (5.4 to 5.6) -/

/-- The computation that ended without a route (R70 to R72). -/
def RouteCalc.noRoute (stage : RouteStage) (goal : Option Goal) : RouteCalc :=
  { stage := stage, goal := goal, vertical := none, target := none, targetXY := none, glyph := none, delta := none,
    figures := none, pinApplied := false, result := .noRoute }

/-- From a chosen target on: own node (R73), arrival (R74), arrow (R75 to R77) and pin (R79). The previous arrow counts
only when neither destination nor target has changed (R78). -/
def routeToTarget (e : RouteEnv) (p : Position) (ownNode : Option Nat) (pins : List Pin) (d : Nat) (old : Slot)
    (goal : Goal) (vertical : Option (Nat × Nat)) (target : Target) (x y : Int) (glyph : Option Glyph) : RouteCalc :=
  let base : RouteCalc :=
    { stage := .ownNode, goal := some goal, vertical := vertical, target := some target, targetXY := some (x, y),
      glyph := glyph, delta := none, figures := none, pinApplied := false, result := .here }
  if vertical.isSome && ownNode.isSome && vertical.map (·.1) = ownNode then base
  else
    let dx := x - p.x
    let ds := p.y - y
    if dx.natAbs + ds.natAbs ≤ p.radius then { base with stage := .here, delta := some (dx, ds) }
    else
      let prev := if old.dest = some d && old.target = some target then old.prev else none
      let c := arrowCalc e.hysteresis p.heading dx ds prev
      let (arrow, pinned) := pinnedArrow e pins d c.computed
      { base with
        stage := .arrow, delta := some (dx, ds), figures := some c, pinApplied := pinned, result := .arrow arrow }

/-- From a chosen goal on: the vertical leg (R72, R73). -/
def routeToGoal (e : RouteEnv) (p : Position) (ownNode : Option Nat) (pins : List Pin) (d : Nat) (old : Slot)
    (goal : Goal) (dg : Nat) (xg yg : Int) : RouteCalc :=
  if dg = p.deck then
    let target := match goal with
      | .point k x y => Target.point k x y
      | .portal i _ => Target.node i
    routeToTarget e p ownNode pins d old goal none target xg yg none
  else
    match chooseVertical e.barred p dg xg yg e.nodes with
    | none => .noRoute .noVertical (some goal)
    | some (i, c) =>
      match e.nodes.look i with
      | none => .noRoute .noVertical (some goal)
      | some n =>
        routeToTarget e p ownNode pins d old goal (some (i, c)) (.node i) n.spec.x n.spec.y
          (some (deckGlyph p.deck dg))

/-- A whole computation of a panel towards a destination (5.4 to 5.6). `ownNode` is the own node of a LANDING; `pins`
are the pins that may govern; `old` is the slot as it stood. -/
def routeCalc (e : RouteEnv) (pos : Option Position) (ownNode : Option Nat) (pins : List Pin) (d : Nat) (old : Slot) :
    RouteCalc :=
  match pos with
  | none => .noRoute .noPosition none
  | some p =>
    match (e.dests.look d).bind (chooseGoal e p) with
    | none => .noRoute .noPortal none
    | some goal =>
      match goalPoint e goal with
      | none => .noRoute .noPortal none
      | some (dg, xg, yg) => routeToGoal e p ownNode pins d old goal dg xg yg

/-! ### Arrow slots (R63) -/

/-- A slot with nothing computed: an agenda slot of an empty row, or a slot before its first computation. -/
def Slot.empty : Slot :=
  { dest := none, name := none, portal := none, vertical := none, target := none, prev := none, result := none,
    glyph := none, pinned := false }

/-- The portal of a goal (R71). -/
def Goal.portalNode : Option Goal → Option Nat
  | some (.portal i _) => some i
  | some (.point _ _ _) => none
  | none => none

/-- The slot record a computation gives (R63, R78). -/
def RouteCalc.slot (r : RouteCalc) (d : Nat) (name : Option Nat) : Slot :=
  { dest := some d
    name := name
    portal := Goal.portalNode r.goal
    vertical := r.vertical.map (·.1)
    target := r.target
    prev := r.figures.map (·.computed)
    result := some r.result
    glyph := r.glyph
    pinned := r.pinApplied }

/-- The own node that R73 tests: a LANDING's. -/
def Decl.landingNode (d : Decl) : Option Nat := if d.kind = .landing then d.ownNode else none

/-- The name phrase of a destination (R63). -/
def RouteEnv.nameOf (e : RouteEnv) (d : Nat) : Option Nat := (e.dests.look d).map (·.name)

/-- A GUIDE slot computed (R68, R79). -/
def Panel.guideSlot (p : Panel) (e : RouteEnv) (d : Nat) (old : Slot) : Slot :=
  (routeCalc e p.decl.position p.decl.landingNode p.pins d old).slot d (e.nameOf d)

/-- An agenda slot computed: it holds no name phrase (R63). -/
def Panel.agendaSlot (p : Panel) (e : RouteEnv) (d : Nat) (old : Slot) : Slot :=
  (routeCalc e p.decl.position p.decl.landingNode p.pins d old).slot d none

/-- The ALERT slot computed towards the station; no pin governs it (R79). -/
def Panel.stationSlot (p : Panel) (e : RouteEnv) (old : Slot) : Slot :=
  (routeCalc e p.decl.position p.decl.landingNode [] p.decl.station old).slot p.decl.station
    (e.nameOf p.decl.station)

/-- The mark a GUIDE slot's change makes (R64). -/
def guideMarks (old new : Slot) : List Mark :=
  if old.name ≠ new.name then [(.guide, .content)]
  else if old.result ≠ new.result || old.glyph ≠ new.glyph then [(.guide, .route)] else []

/-- The mark the ALERT slot's change makes (R64). -/
def alertMarks (old new : Slot) : List Mark :=
  if old.name ≠ new.name || old.result ≠ new.result || old.glyph ≠ new.glyph then [(.alert, .alert)] else []

/-- The GUIDE slots for a guide list against the held ones: a row that keeps its destination is compared; one that is
created, deleted or changed marks GUIDE with class CONTENT (R64, R68). -/
def Panel.guideSlotsFor (p : Panel) (e : RouteEnv) : List Nat → List Slot → List Slot × List Mark
  | [], [] => ([], [])
  | [], _ :: _ => ([], [(.guide, .content)])
  | d :: ds, [] =>
    let (ss, ms) := p.guideSlotsFor e ds []
    (p.guideSlot e d .empty :: ss, (.guide, .content) :: ms)
  | d :: ds, o :: os =>
    let (ss, ms) := p.guideSlotsFor e ds os
    if o.dest = some d then
      (p.guideSlot e d o :: ss, guideMarks o (p.guideSlot e d o) ++ ms)
    else (p.guideSlot e d .empty :: ss, (.guide, .content) :: ms)

/-- A held agenda slot computed again with the venue of the row it holds (R67); an empty one stays empty. -/
def Panel.agendaSlotAgain (p : Panel) (e : RouteEnv) (o : Slot) : Slot :=
  match o.dest with
  | some d => p.agendaSlot e d o
  | none => .empty

/-- Every slot of a panel computed in the slot order, with the marks (R64, R67, R68). -/
def Panel.routePass (p : Panel) (e : RouteEnv) : Panel × List Mark :=
  let (gs, gm) := p.guideSlotsFor e p.guide p.guideSlots
  let a := p.stationSlot e p.alertSlot
  ({ p with guideSlots := gs, agendaSlots := p.agendaSlots.map (p.agendaSlotAgain e), alertSlot := a },
    gm ++ alertMarks p.alertSlot a)

end Sys2Proof.Machine
end

