-- ==== Sys2Proof/Machine/Content.lean ====
section
/-! DEFINITION. The content unit: draw decisions, agendas, notices, phrases and pages (sections 4 and 6). -/

namespace Sys2Proof.Machine

/-! ### The draw queue and the draw decision (R91, R109) -/

/-- Place an entry at the tail of its class (R109): before the first entry of a lower class. -/
def enqueueEntry (e : Entry) : List Entry → List Entry
  | [] => [e]
  | q :: qs => if q.cls.rank < e.cls.rank then e :: q :: qs else q :: enqueueEntry e qs

/-- A panel's entry, if it has one. -/
def entryOf (q : List Entry) (id : Nat) : Option Entry := q.find? fun e => e.panel = id

/-- The queue without a panel's entry. -/
def removeEntry (q : List Entry) (id : Nat) : List Entry := q.filter fun e => e.panel ≠ id

/-- Set the force-full flag of a panel's entry where it stands. -/
def forceEntry (id : Nat) : List Entry → List Entry
  | [] => []
  | e :: es => (if e.panel = id then { e with full := true } else e) :: forceEntry id es

/-- The queue after a decision for a panel that needs drawing and may be queued (R91): a new entry; an entry moved up
to the tail of a higher need class; or the entry where it stands. A forced draw sets the force-full flag. -/
def queueAfter (q : List Entry) (id : Nat) (need : DrawClass) (forced : Bool) : List Entry :=
  match entryOf q id with
  | none => enqueueEntry ⟨id, need, forced⟩ q
  | some e =>
    if e.cls.rank < need.rank then enqueueEntry ⟨id, need, e.full || forced⟩ (removeEntry q id)
    else if forced then forceEntry id q else q

/-- The states in which a panel may be queued (R91). -/
def LineState.queueable : LineState → Bool
  | .live => true
  | .serving => true
  | .updating => true
  | .absent => false
  | .fault => false

/-- The draw decision for a panel (R91). -/
def LineUnit.decideFor (l : LineUnit) (id : Nat) (p : Panel) (forced : Bool) : LineUnit :=
  if p.needsDraw && p.line.state.queueable then
    { l with queue := queueAfter l.queue id p.needClass forced }
  else l

/-! ### Passes over panels: change, mark, decide (R53, R91) -/

/-- When a pass takes its draw decision: for a panel it marked or whose V it changed, or always. -/
inductive DecideWhen where
  | touched | always
  deriving DecidableEq, Repr

/-- One panel's share of an event: its content changes and its marks are taken; the draw decision follows when a
component was marked or V changed, or always (R91). -/
def passPanel (w : DecideWhen) (forced : Bool) (f : Nat → Panel → Panel × List Mark) (id : Nat) (p : Panel)
    (ls : Four LineUnit) : Panel × Four LineUnit :=
  let (p1, ms) := f id p
  let p2 := p1.mark ms
  (p2,
    if w = .always || !ms.isEmpty || p2.visible ≠ p.visible then
      ls.modify (lineOf id) fun l => l.decideFor id p2 forced
    else ls)

/-- A pass over the declared panels in ascending order of id, each complete before the next (R53, R91). -/
def passAll (w : DecideWhen) (forced : Bool) (f : Nat → Panel → Panel × List Mark) :
    Table Panel → Four LineUnit → Table Panel × Four LineUnit
  | [], ls => ([], ls)
  | (id, p) :: t, ls =>
    let (p', ls1) := passPanel w forced f id p ls
    let (t', ls2) := passAll w forced f t ls1
    ((id, p') :: t', ls2)

/-- A pass over every panel. -/
def State.pass (s : State) (w : DecideWhen) (forced : Bool) (f : Nat → Panel → Panel × List Mark) : State :=
  let (ps, ls) := passAll w forced f s.panels s.lines
  { s with panels := ps, lines := ls }

/-- A pass over one panel; nothing for an undeclared id. -/
def State.passOne (s : State) (id : Nat) (w : DecideWhen) (forced : Bool) (f : Nat → Panel → Panel × List Mark) :
    State :=
  match s.panels.look id with
  | none => s
  | some p =>
    let (p', ls) := passPanel w forced f id p s.lines
    { s with panels := s.panels.put id p', lines := ls }

/-- Two shares of one event, in order. -/
def andThen (f g : Nat → Panel → Panel × List Mark) (id : Nat) (p : Panel) : Panel × List Mark :=
  let (p1, m1) := f id p
  let (p2, m2) := g id p1
  (p2, m1 ++ m2)

/-- A forced draw marks every component of V (R88). -/
def markVisible (c : DrawClass) (_id : Nat) (p : Panel) : Panel × List Mark := (p, p.visible.marks c)

/-- The forced draw of one panel (R88, R91). -/
def State.forcedDraw (s : State) (id : Nat) (c : DrawClass) : State := s.passOne id .touched true (markVisible c)

/-! ### Agendas (R49 to R54) -/

/-- The row limit of a kind (R50). -/
def PanelKind.rowLimit : PanelKind → Nat
  | .door => 2
  | .venue => 3
  | .corridor => 4
  | .landing => 4

/-- The condition of a screen at large (R50): featured, not booking-only, category in the mask, SOON or ON. -/
def Decl.featuresEvent (d : Decl) (e : Event) : Bool :=
  e.featured && !e.bookingOnly && d.mask.getLsbD e.category && (e.state = .soon || e.state = .on)

/-- Is an event taken into the agenda of a panel at ship minute M (R50)? -/
def takesEvent (bookings : List Booking) (m : Nat) (id : Nat) (d : Decl) (e : Event) : Bool :=
  match d.kind with
  | .venue => d.venue = some e.venue && !e.bookingOnly && e.state ≠ .ended && e.start ≤ m + 720
  | .corridor => d.featuresEvent e
  | .landing => d.featuresEvent e
  | .door =>
    bookings.contains ⟨id, e.id⟩ &&
      (e.state = .on || e.state = .soon || (e.state = .listed && e.start ≤ m + 120))

/-- The events of a panel's agenda, in the order of the event table (R30, R49, R50); none while the clock is unset. -/
def State.chosenEvents (s : State) (id : Nat) (d : Decl) : List Event :=
  match s.clock.m with
  | none => []
  | some m => (s.events.filter (takesEvent s.bookings m id d)).take d.kind.rowLimit

/-- The mark of a row (R51). -/
def Event.rowMark (e : Event) : RowMark :=
  if e.cancelled then .cancelled
  else
    match e.state with
    | .on => .now
    | .soon => .soon
    | .listed => .next
    | .ended => .next

/-- A row (R51), its arrow field from the row's slot. -/
def State.rowFor (s : State) (e : Event) (slot : Slot) : Row :=
  { event := e.id
    title := e.title
    venueName := ((s.dests.look e.venue).map (·.name)).getD 0
    hour := e.start % 1440 / 60
    minute := e.start % 1440 % 60
    mark := e.rowMark
    arrow := slot.result
    glyph := slot.glyph }

/-- CORRIDOR and LANDING panels with AGENDA fitted have agenda slots (R52, R63). -/
def Decl.hasAgendaSlots (d : Decl) : Bool := d.kind.hasArrows && d.fitted.agenda

/-- The agenda slots that serve the row positions (R52): a slot keeps destination and result while its row keeps its
venue, is computed afresh for another venue, and is empty for an empty row. -/
def Panel.agendaSlotsFor (p : Panel) (e : RouteEnv) : Nat → List Event → List Slot → List Slot
  | 0, _, _ => []
  | n + 1, [], os => .empty :: p.agendaSlotsFor e n [] os.tail
  | n + 1, ev :: evs, os =>
    let o := os.headD .empty
    (if o.dest = some ev.venue then o else p.agendaSlot e ev.venue .empty) ::
      p.agendaSlotsFor e n evs os.tail

/-- Rows of events with their slots; a list of slots that ends early gives no arrow. -/
def State.rowsFor (s : State) : List Event → List Slot → List Row
  | [], _ => []
  | e :: es, os => s.rowFor e (os.headD .empty) :: s.rowsFor es os.tail

/-- A row without its arrow field. -/
def Row.withoutArrow (r : Row) : Row := { r with arrow := none, glyph := none }

/-- The events that have agendas recomputed, as R53 divides them by the cause they record: a change of the route epoch;
and a clock notice, a programme change, a PANEL_DECLARE or a GUIDE_SET. -/
inductive AgendaEvent where
  | epoch | other
  deriving DecidableEq, Repr

/-- The class of an agenda change (R53): at a change of the route epoch ROUTE when every difference lies in the arrow
field (R54), and CONTENT otherwise; at every other event CONTENT (log 18). -/
def agendaClass (ev : AgendaEvent) (old new : List Row) : DrawClass :=
  match ev with
  | .epoch => if old.map Row.withoutArrow = new.map Row.withoutArrow then .route else .content
  | .other => .content

/-- The recomputation of one panel's agenda (R50 to R54). -/
def State.agendaPass (s : State) (ev : AgendaEvent) (id : Nat) (p : Panel) : Panel × List Mark :=
  if p.decl.fitted.agenda then
    let evs := s.chosenEvents id p.decl
    let slots := if p.decl.hasAgendaSlots then p.agendaSlotsFor s.routeEnv 4 evs p.agendaSlots else []
    let rows := s.rowsFor evs slots
    let p1 := { p with agendaSlots := slots, content := { p.content with rows := rows } }
    (p1.refresh s.muster.level s.clock.set,
      if rows = p.content.rows then [] else [(.agenda, agendaClass ev p.content.rows rows)])
  else (p, [])

/-- R53: the recomputation of every agenda, with the draw decisions. -/
def State.agendas (s : State) : State := s.pass .touched false (s.agendaPass .other)

/-! ### Notices (R55 to R57) -/

/-- Write the notice field; a changed phrase id marks NOTICE (R56). -/
def Panel.setNotice (p : Panel) (level : Level) (clockSet : Bool) (n : Option Notice) : Panel × List Mark :=
  (({ p with content := { p.content with notice := n } }).refresh level clockSet,
    if p.content.notice.map (·.phrase) = n.map (·.phrase) then [] else [(.notice, .content)])

/-- Has a notice's expiry been reached at a ship minute (R57)? -/
def Notice.expired (n : Notice) (m : Option Nat) : Bool :=
  match n.expiry, m with
  | some e, some now => e ≤ now
  | some _, none => false
  | none, some _ => false
  | none, none => false

/-- The test of one panel's notice at a clock notice (R57). -/
def State.noticePass (s : State) (_id : Nat) (p : Panel) : Panel × List Mark :=
  match p.content.notice with
  | some n => if n.expired s.clock.m then p.setNotice s.muster.level s.clock.set none else (p, [])
  | none => (p, [])

/-- The content unit's part of a clock notice (R53, R57). -/
def State.clockPass (s : State) : State := s.pass .touched false (andThen (s.agendaPass .other) s.noticePass)

/-! ### The route epoch (R66, R67) -/

/-- Every slot, then the agenda, of one panel. -/
def State.routeAgendaPass (s : State) (ev : AgendaEvent) : Nat → Panel → Panel × List Mark :=
  andThen (fun _ p => p.routePass s.routeEnv) (s.agendaPass ev)

/-- R66, R67: the epoch is incremented, every slot and every agenda computed, and each panel's need decided once. -/
def State.bumpEpoch (s : State) : State :=
  let t := { s with epoch := (s.epoch + 1) % 4294967296 }
  t.pass .touched false (t.routeAgendaPass .epoch)

/-! ### The muster page in and out of use (R62, R86) -/

/-- A change of level at one panel: ALERT joins or leaves the in-use set, marked when it joins or its banner changes. -/
def State.levelPass (s : State) (_id : Nat) (p : Panel) : Panel × List Mark :=
  (p.refresh s.muster.level s.clock.set, if s.muster.level.alarmed then [(.alert, .alert)] else [])

/-- Rotation is suspended: the pending step of a screen is discarded (R62). -/
def Panel.suspendRotation (p : Panel) : Panel :=
  { p with content := { p.content with rotation := p.content.rotation.map fun r => { r with due := none } } }

/-- Rotation resumes: the next step is due at U + dwell (R62). -/
def Panel.resumeRotation (p : Panel) (due : Nat) : Panel :=
  { p with content := { p.content with rotation := p.content.rotation.map fun r => { r with due := some due } } }

/-- The run time of the next rotation step counted from now: U + dwell (R61, R62). -/
def State.rotationDue (s : State) : Nat := s.clock.u + 1000 * s.params.dwell

/-! ### Phrases (R17, R18) -/

/-- The key of a text in the phrase store: id and language. -/
def phraseKey (id lang : Nat) : Nat := 8 * id + lang

/-- The ASCII digit of a number below 10. -/
def digit (n : Nat) : Byte := BitVec.ofNat 8 (48 + n % 10)

/-- "#" and the phrase id as four decimal digits (R18). -/
def phraseFallback (id : Nat) : Bytes :=
  [0x23#8, digit (id / 1000), digit (id / 100), digit (id / 10), digit id]

/-- The text of a phrase in a wanted language (R18). -/
def State.phrase (s : State) (id lang : Nat) : Bytes :=
  if id = 0 then []
  else
    match s.phrases.look (phraseKey id lang) with
    | some t => t
    | none =>
      match s.phrases.look (phraseKey id s.params.primaryLang) with
      | some t => t
      | none => phraseFallback id

/-! ### Pages (R93 to R96) -/

/-- The wanted language of a panel (R58, R61, R93). -/
def Panel.wantedLang (p : Panel) : Nat :=
  match p.content.cabin with
  | some c => c.lang
  | none =>
    match p.content.rotation with
    | some r => p.decl.langs.getD r.index 0
    | none => 0

/-- Phrase 1, shown in place of an arrow (R80, R94). -/
def State.helpFor (s : State) (r : Option ArrowResult) (lang : Nat) : Option Bytes :=
  if r = some .noRoute then some (s.phrase 1 lang) else none

/-- A row as the page carries it: arrow fields on CORRIDOR and LANDING rows only (R94). -/
def State.pageRow (s : State) (lang : Nat) (r : Row) : PageRow :=
  { title := s.phrase r.title lang, venue := s.phrase r.venueName lang, hour := r.hour, minute := r.minute,
    mark := r.mark, arrow := r.arrow, glyph := r.glyph, help := s.helpFor r.arrow lang }

/-- A guide line (R80, R94). -/
def State.pageLine (s : State) (lang : Nat) (g : Slot) : PageLine :=
  { name := s.phrase (g.name.getD 0) lang, result := g.result, glyph := g.glyph, help := s.helpFor g.result lang }

/-- One language of the muster page (R94, R143). -/
def State.alertText (s : State) (a : Slot) (lang : Nat) : AlertText :=
  { station := s.phrase (a.name.getD 0) lang, help := s.helpFor a.result lang,
    instructions := [2, 3, 4, 5].map fun i => s.phrase i lang }

/-- The languages of the muster page: the primary language, then the panel's own when it is another (R94). -/
def State.alertLangs (s : State) (p : Panel) : List Nat :=
  if p.wantedLang = s.params.primaryLang then [s.params.primaryLang] else [s.params.primaryLang, p.wantedLang]

/-- The section of a component, built from the record as it stands, in the page's language (R94). -/
def State.sectionOf (s : State) (p : Panel) (lang : Nat) : Comp → PageSection
  | .plate =>
    .plate p.decl.plateText (s.phrase p.decl.platePhrase lang) ((p.content.cabin.bind (·.occupant)).getD [])
      ((p.content.cabin.map (·.dnd)).getD false)
  | .notice => .notice (s.phrase ((p.content.notice.map (·.phrase)).getD 0) lang)
  | .agenda => .agenda (p.content.rows.map (s.pageRow lang))
  | .guide => .guide (p.guideSlots.map (s.pageLine lang))
  | .alert =>
    .alert ((s.dests.look p.decl.station).bind (·.letter)) p.alertSlot.result p.alertSlot.glyph
      ((s.alertLangs p).map (s.alertText p.alertSlot))

/-- A text travels as a length byte and its bytes (R94). -/
def textLength (t : Bytes) : Nat := 1 + t.length

def helpLength : Option Bytes → Nat
  | some t => textLength t
  | none => 0

def PageRow.length (r : PageRow) : Nat := textLength r.title + textLength r.venue + 5 + helpLength r.help

def PageLine.length (l : PageLine) : Nat := textLength l.name + 2 + helpLength l.help

def AlertText.length (a : AlertText) : Nat :=
  textLength a.station + helpLength a.help + (a.instructions.map textLength).sum

/-- The length of a section with its header of 3 bytes (R94). -/
def PageSection.length : PageSection → Nat
  | .plate text phrase occupant _ => 3 + textLength text + textLength phrase + textLength occupant + 1
  | .notice text => 3 + textLength text
  | .agenda rows => 3 + 1 + (rows.map PageRow.length).sum
  | .guide lines => 3 + 1 + (lines.map PageLine.length).sum
  | .alert _ _ _ texts => 3 + 1 + 1 + 2 + (texts.map AlertText.length).sum

/-- The length of a page with its header of 8 bytes (R94). -/
def pageLength (ss : List PageSection) : Nat := 8 + (ss.map PageSection.length).sum

/-- Drop the last AGENDA row (R95). -/
def PageSection.dropRow : PageSection → PageSection
  | .agenda rows => .agenda rows.dropLast
  | s => s

/-- R95: drop AGENDA rows from the last, at most `n` of them, until the page fits. -/
def truncatePage : Nat → List PageSection → List PageSection
  | 0, ss => ss
  | n + 1, ss => if pageLength ss ≤ Config.maxPage then ss else truncatePage n (ss.map PageSection.dropRow)

/-- A page of given sets, its sections built and truncated (R94, R95). -/
def State.buildPage (s : State) (p : Panel) (j : JobPage) (carried : CompSet) : Page :=
  let ss := truncatePage p.content.rows.length (carried.members.map (s.sectionOf p j.lang))
  { visible := j.visible, carried := carried, banner := j.banner, lang := j.lang, full := j.full,
    length := pageLength ss, sections := ss }

/-- Is the page full (R93, step 3)? -/
def Panel.pageFull (p : Panel) (held : CompSet) (fresh : Bool) : Bool :=
  p.content.jobForced
    || (p.line.partialCount = Config.maxPartial && !p.visible.alert)
    || p.content.shown.set = .nil
    || fresh
    || !(p.visible.subset (p.content.dirty.comps.union held))

/-- The carried components leave the DIRTY set and enter the in-flight set; the job page is taken (R93, step 5). -/
def Panel.carry (p : Panel) (j : JobPage) (carried : CompSet) : Panel :=
  { p with content := { p.content with
      dirty := p.content.dirty.remove carried
      inFlight := p.content.inFlight.union carried
      jobPage := some j } }

/-- The held belief takes the held set the answer reports (R93, step 1). -/
def Panel.withHeld (p : Panel) (held : CompSet) : Panel :=
  { p with content := { p.content with shown := { p.content.shown with held := held } } }

/-- The job is over at the content unit: job class and job page become none. -/
def Panel.endJob (p : Panel) : Panel :=
  { p with content := { p.content with jobClass := none, jobForced := false, jobPage := none } }

/-- Composition (R93): the panel's record after it, and the page, or none for an empty composition. -/
def State.compose (s : State) (p0 : Panel) (held : CompSet) (fresh : Bool) : Panel × Option Page :=
  let p := p0.withHeld held
  let v := p.visible
  let full := p.pageFull held fresh
  let carried := if full then v else v.inter p.content.dirty.comps
  if !full && carried = .nil && v = p.content.shown.set then (p.endJob, none)
  else
    let j : JobPage :=
      { visible := v, banner := if v.alert then s.muster.level.banner else none, lang := p.wantedLang, full := full,
        removed := .nil }
    (p.carry j carried, some (s.buildPage p j carried))

/-- The page composed again as a full page after a first NEED_FULL (R96): the components not carried before leave the
DIRTY set. What has been removed since the first composition stays so (log 38). -/
def State.recompose (s : State) (p : Panel) (j : JobPage) : Panel × Page :=
  let j' := { j with full := true }
  let p' := { p with content := { p.content with
      dirty := p.content.dirty.remove (j.visible.diff p.content.inFlight)
      inFlight := p.content.inFlight.union j.visible
      jobPage := some j' } }
  (p', s.buildPage p j' j.visible)

/-- Completion at the content unit (R97): the shown record from the job page, the in-flight set emptied. -/
def Panel.completeJob (p : Panel) : Panel :=
  match p.content.jobPage with
  | none => { p with content := { p.content with inFlight := .nil } }.endJob
  | some j =>
    let c := p.content
    let carried := c.inFlight
    let held := if j.full || c.shown.lang ≠ some j.lang then carried else c.shown.held.union carried
    { p with content := { c with
        inFlight := .nil
        shown := { set := j.visible.diff j.removed, banner := j.banner, lang := some j.lang, held := held } } }.endJob

/-- A job ends without completion (R98): the in-flight set returns to the DIRTY set with the job class. -/
def Panel.returnWork (p : Panel) : Panel :=
  let ms := match p.content.jobClass with
    | some c => p.content.inFlight.marks c
    | none => []
  ({ p.mark ms with content := { (p.mark ms).content with inFlight := .nil } }).endJob

end Sys2Proof.Machine
end

