-- ==== Sys2Proof/Machine/Muster.lean ====
section
/-! DEFINITION. The rest ladder and brightness (section 8), and the muster unit's operations: coverage, the end of
RESTORING, the raise and the all-clear (section 9). -/

namespace Sys2Proof.Machine

/-! ### The rest ladder (R127 to R131) -/

/-- The poll interval of a LIVE screen at a rest level, in milliseconds (8.2, R130). -/
def Rest.interval : Rest → Nat
  | .active => 1000
  | .rest1 => 2000
  | .rest2 => 4000
  | .rest3 => 8000

/-- The brightness table value (8.2). -/
def Rest.tableValue (mode : Mode) : Rest → Nat
  | .active => match mode with
    | .day => 100
    | .night => 60
  | .rest1 => match mode with
    | .day => 70
    | .night => 30
  | .rest2 => match mode with
    | .day => 40
    | .night => 10
  | .rest3 => 0

/-- The quiet time of a panel, in milliseconds (R128). -/
def LinePart.quiet (l : LinePart) (u : Nat) : Nat := u - l.lastPresence.getD l.origin

/-- The level whose band holds a quiet time (8.2, R129). -/
def restBand (z : ZoneParams) (q : Nat) : Rest :=
  if q < 1000 * z.runTime then .active
  else if q < 1000 * (z.runTime + z.rest1) then .rest1
  else if q < 1000 * (z.runTime + z.rest1 + z.rest2) then .rest2
  else .rest3

/-- The brightness of a panel at the moment it is added to a frame (R132). A door's is 0. -/
def brightnessOf (level : Level) (mode : Mode) (p : Panel) : Nat :=
  if p.decl.kind = .door then 0
  else if level.alarmed then 100
  else
    let t := p.line.rest.tableValue mode
    let b := t * (40 + 6 * p.line.ambient) / 100
    if t = 0 then 0 else if b < 5 then 5 else b

def State.brightness (s : State) (p : Panel) : Nat := brightnessOf s.muster.level s.muster.mode p

/-- The interval to the next poll or probe in a panel's line state, none while SERVING (R111). -/
def Panel.interval (p : Panel) : Option Nat :=
  match p.line.state with
  | .updating => some Config.updatingPoll
  | .live => some (if p.decl.kind = .door then Config.livePollDoor else p.line.rest.interval)
  | .serving => none
  | .absent => some Config.absentProbe
  | .fault => some Config.faultProbe

/-- R111: the next poll due, set at a time. -/
def Panel.schedule (p : Panel) (u : Nat) : Panel :=
  { p with line := { p.line with nextPoll := p.interval.map (u + ·) } }

/-- A screen's rest level changed at an event that is no answer: a LIVE screen's next poll becomes the earlier of its
present due time and U + the interval of the new level (R130). -/
def Panel.restAt (p : Panel) (r : Rest) (u : Nat) : Panel :=
  { p with line := { p.line with
      rest := r
      nextPoll := if p.line.state = .live then some (min (p.line.nextPoll.getD (u + r.interval)) (u + r.interval))
        else p.line.nextPoll } }

/-- The ladder at a raise from NORMAL or RESTORING (R131). -/
def Panel.holdAwake (u : Nat) (p : Panel) : Panel := if p.decl.kind.isScreen then p.restAt .active u else p

/-- The ladder at the end of a drill or muster (R131): evaluated from the quiet time alone. -/
def Panel.releaseRest (z : ZoneParams) (u : Nat) (p : Panel) : Panel :=
  if p.decl.kind.isScreen then p.restAt (restBand z (p.line.quiet u)) u else p

/-- The readings of a good answer (R127, R129, R131). -/
def Panel.takeReadings (p : Panel) (z : ZoneParams) (level : Level) (u presence ambient : Nat) : Panel :=
  let l := { p.line with
    ambient := min ambient 10
    lastPresence := if 0 < presence then some u else p.line.lastPresence }
  if p.decl.kind.isScreen && !level.alarmed then
    { p with line := { l with rest := if 0 < presence then .active else restBand z (l.quiet u) } }
  else { p with line := l }

/-! ### The night sweep's opening and closing (R122) -/

/-- The sweep is open in zone mode NIGHT at level NORMAL. -/
def Muster.sweepOpen (m : Muster) : Bool := m.mode = .night && m.level = .normal

/-- A change of mode or level handed to the line units (R122). -/
def sweepChange (was is : Bool) (due : Nat) (l : LineUnit) : LineUnit :=
  if is && !was then { l with sweepDue := some due }
  else if was && !is then { l with sweepDue := none }
  else l

/-- Every line unit is handed a change of zone mode or level; `old` is the muster unit before it. -/
def State.sweepUpdate (s : State) (old : Muster) : State :=
  { s with lines := .build fun i =>
      sweepChange old.sweepOpen s.muster.sweepOpen (s.clock.u + 1000 * s.params.sweepInterval) (s.lines.get i) }

/-! ### Coverage (R144 to R147) -/

/-- LIVE, SERVING or UPDATING. -/
def LineState.inService : LineState → Bool
  | .live => true
  | .serving => true
  | .updating => true
  | .absent => false
  | .fault => false

/-- Does a panel show a banner? -/
def Panel.shows (p : Panel) (l : AlertLevel) : Bool := p.content.shown.banner = some l

/-- Live panels (R144). -/
def liveCount (ps : Table Panel) : Nat := ps.count fun _ p => p.line.state.inService

/-- Covered panels: live panels that show the banner (R144). -/
def coveredCount (ps : Table Panel) (l : AlertLevel) : Nat :=
  ps.count fun _ p => p.line.state.inService && p.shows l

def stateCount (ps : Table Panel) (l : LineState) : Nat := ps.count fun _ p => p.line.state = l

/-- The ids of the live panels that are not covered, ascending (R147). -/
def uncovered (ps : Table Panel) (l : AlertLevel) : List Nat :=
  (ps.filter fun e => e.2.line.state.inService && !e.2.shows l).map (·.1)

/-- The counts evaluated afresh (R145). -/
def Coverage.evaluate (c : Coverage) (ps : Table Panel) : Coverage :=
  { c with live := liveCount ps, covered := coveredCount ps c.level }

/-- Has the record just become complete (R146)? -/
def Coverage.completes (c : Coverage) : Bool := c.covered = c.live && 0 < c.live && !c.complete

/-- Store a coverage record. -/
def State.setCoverage (s : State) (c : Option Coverage) : State :=
  { s with muster := { s.muster with coverage := c } }

/-- R145, R146: evaluate the record, and report its completion once. -/
def State.evaluateCoverage (s : State) : State :=
  match s.muster.coverage with
  | none => s
  | some c0 =>
    let c := c0.evaluate s.panels
    if c.completes then
      (s.setCoverage (some { c with complete := true })).report
        (.coverageComplete s.seconds c.level c.live c.covered ((s.clock.u - c.start) / 1000)
          (stateCount s.panels .fault) (stateCount s.panels .absent))
    else s.setCoverage (some c)

/-- Start a coverage record at a raise (R144), evaluated at once. -/
def State.startCoverage (s : State) (l : AlertLevel) : State :=
  (s.setCoverage (some
    { level := l, start := s.clock.u, deadline := s.clock.u + 1000 * s.params.coverageDeadline, live := 0,
      covered := 0, complete := false, short := false })).evaluateCoverage

/-! ### The end of RESTORING (R141) -/

/-- Does a panel in LIVE, SERVING or UPDATING have ALERT in its shown set? -/
def alertShown (ps : Table Panel) : Bool :=
  ps.exists? fun _ p => p.line.state.inService && p.content.shown.set.alert

/-- The test of R141: RESTORING ends at NORMAL when no such panel remains; the sweep opens in zone mode NIGHT. No set
changes and nothing is marked, and no draw decision is taken (R86, R91; log 37). -/
def State.restoreTest (s : State) : State :=
  if s.muster.level = .restoring && !alertShown s.panels then
    let t := { s with muster := { s.muster with level := .normal } }
    (t.sweepUpdate s.muster).report
      (.restoreDone s.seconds ((s.clock.u - s.muster.restoreStart.getD s.clock.u) / 1000))
  else s

/-- What the muster unit does when the line units hand it a completion or a change of the live set (R108, R141,
R145). -/
def State.musterNotice (s : State) : State := s.evaluateCoverage.restoreTest

/-! ### General alert (R148) -/

/-- The due time of every line that holds no declared panel is set, the others kept none. -/
def State.alertsDue (s : State) : State :=
  { s with muster := { s.muster with
      alertDue := .build fun i => if s.hasPanels i then none else some s.clock.u } }

/-! ### The raise and the all-clear (R137, R140) -/

def inputCause : AlarmInput → LevelCause
  | .drill => .drillInput
  | .general => .generalInput

/-- Step 3 and 4 of a raise from NORMAL or RESTORING: epoch, slots, agendas, ALERT in use, rotation suspended, draw
decisions (R66, R69, R86, R62). -/
def State.enterAlarm (s : State) : State :=
  let t := { s with epoch := (s.epoch + 1) % 4294967296 }
  t.pass .touched false
    (andThen (t.routeAgendaPass .epoch) (andThen t.levelPass fun _ p => (p.suspendRotation, [])))

/-- Step 5 of a raise from NORMAL or RESTORING: every screen held awake (R131). -/
def State.holdAwake (s : State) : State :=
  { s with panels := s.panels.mapVals fun _ p => p.holdAwake s.clock.u }

/-- A raise to a level by a cause (R137); one that ranks no higher than the present level changes nothing. -/
def State.raiseLevel (s : State) (l : AlertLevel) (cause : LevelCause) : State :=
  let old := s.muster
  if l.level.rank ≤ old.level.rank then s
  else
    let entering := !old.level.alarmed
    let s1 := { s with muster := { old with
      saved := if entering then old.mode else old.saved
      level := l.level } }
    let s2 := if entering then s1.enterAlarm else s1.pass .touched false s1.levelPass
    let s3 := s2.sweepUpdate old
    let s4 := if entering then s3.holdAwake else s3
    let s5 := s4.alertsDue
    let s6 := s5.report (.musterLevel s5.seconds old.level l.level cause s5.muster.drill.latch
      s5.muster.general.latch s5.muster.mode s5.muster.saved s5.epoch)
    s6.startCoverage l

/-- Steps 3 and 4 of an accepted all-clear: epoch, slots, agendas, ALERT out of use, rotation resumed, draw
decisions. -/
def State.leaveAlarm (s : State) : State :=
  let t := { s with epoch := (s.epoch + 1) % 4294967296 }
  t.pass .touched false
    (andThen (t.routeAgendaPass .epoch)
      fun _ p => ((p.refresh t.muster.level t.clock.set).resumeRotation t.rotationDue, []))

/-- Step 5 of an accepted all-clear: the ladder released, the general alerts ended, the sweep closed. -/
def State.releaseLines (s : State) : State :=
  { s with
    panels := s.panels.mapVals fun _ p => p.releaseRest s.params s.clock.u
    lines := .build fun i => { s.lines.get i with alert := none }
    muster := { s.muster with alertDue := ⟨none, none, none, none⟩ } }

/-- An accepted ALL_CLEAR (R140). -/
def State.allClear (s : State) : State :=
  let old := s.muster
  let s1 := { s with muster := { old with
    drill := { old.drill with latch := false }
    general := { old.general with latch := false }
    level := .restoring
    mode := old.saved
    restoreStart := some s.clock.u } }
  let s2 := s1.leaveAlarm
  let s3 := (s2.releaseLines).sweepUpdate old
  let s4 := s3.setCoverage none
  let s5 := s4.report (.musterLevel s4.seconds old.level .restoring .allClear false false s4.muster.mode
    s4.muster.saved s4.epoch)
  s5.restoreTest

end Sys2Proof.Machine
end

