-- ==== Sys2Proof/Machine/Lines.lean ====
section
/-! DEFINITION. The line units: the arbiter, draw jobs, polls, probes, misses, aborts and the sweep (section 7). -/

namespace Sys2Proof.Machine

/-- Change the record of one panel. -/
def State.updPanel (s : State) (id : Nat) (f : Panel → Panel) : State :=
  match s.panels.look id with
  | some p => s.setPanel id (f p)
  | none => s

/-- Change one line unit. -/
def State.updLine (s : State) (i : Fin 4) (f : LineUnit → LineUnit) : State := s.setLine i (f (s.line i))

/-! ### The arbiter (R92, R105, R110) -/

/-- A panel is eligible when it is LIVE and, for a DOOR, the slot count is below 4 (R110). -/
def LineUnit.eligible (l : LineUnit) (p : Panel) : Bool :=
  p.line.state = .live && (p.decl.kind ≠ .door || l.slots < Config.slotsPerLine)

/-- The first entry, in queue order, that meets a test and whose panel is eligible. -/
def State.firstEntry (s : State) (l : LineUnit) (test : Entry → Bool) : Option Entry :=
  l.queue.find? fun e => test e && (s.panels.look e.panel).any l.eligible

/-- Of the panels in a given line state whose poll or probe is due, the one due earliest, the lower drop first (R110,
R111). -/
def earliestDue (u : Nat) (st : LineState → Bool) : Table Panel → Option (Nat × Nat)
  | [] => none
  | (id, p) :: t =>
    let best := earliestDue u st t
    match p.line.nextPoll with
    | some d =>
      if st p.line.state && d ≤ u then
        match best with
        | some (d', id') => if d' < d then some (d', id') else some (d, id)
        | none => some (d, id)
      else best
    | none => best

/-- What the arbiter may pick. -/
inductive Pick where
  | grant (e : Entry) | poll (id : Nat) | probe (id : Nat)
  deriving DecidableEq, Repr

/-- The arbiter's choice on a free line (R110). -/
def State.choice (s : State) (i : Fin 4) : Option Pick :=
  let l := s.line i
  let ps := s.panelsOf i
  match s.firstEntry l (·.cls = .alert) with
  | some e => some (.grant e)
  | none =>
    match earliestDue s.clock.u (· = .updating) ps with
    | some (_, id) => some (.poll id)
    | none =>
      match s.firstEntry l (·.cls ≠ .alert) with
      | some e => some (.grant e)
      | none =>
        match earliestDue s.clock.u (· = .live) ps with
        | some (_, id) => some (.poll id)
        | none => (earliestDue s.clock.u (fun st => st = .absent || st = .fault) ps).map fun d => .probe d.2

/-- A panel whose job begins (R92, R112): SERVING, its job class and forced flag taken from the entry. -/
def Panel.beginJob (p : Panel) (e : Entry) : Panel :=
  { p with
    content := { p.content with jobClass := some e.cls, jobForced := e.full, jobPage := none }
    line := { p.line with state := .serving, nextPoll := none } }

/-- A granted entry whose job begins: the line sends SELECT (R112). -/
def State.beginJob (s : State) (i : Fin 4) (e : Entry) (p : Panel) : State :=
  (s.setPanel e.panel (p.beginJob e)).updLine i fun l =>
    { l with
      queue := removeEntry l.queue e.panel
      exch := some ⟨.select false, e.panel, false, false⟩
      job := some ⟨e.panel, p.decl.kind = PanelKind.door, 0, none, false⟩ }

/-- The POLL of a panel, with the brightness of the moment (R119, R133). -/
def State.sendPoll (s : State) (i : Fin 4) (id : Nat) : State :=
  match s.panels.look id with
  | some p => s.updLine i fun l => { l with exch := some ⟨.poll (s.brightness p), id, false, false⟩ }
  | none => s

/-- The arbiter of a line (R110): a pending general alert is sent at the first free moment (R105); a granted entry
whose panel no longer needs drawing is discarded, and the arbiter picks again (R92), at most `n` times. -/
def State.pick (i : Fin 4) : Nat → State → State
  | 0, s => s
  | n + 1, s =>
    let l := s.line i
    if l.exch.isSome || l.job.isSome then s
    else
      match l.alert with
      | some a => s.setLine i { l with alert := none, exch := some ⟨.generalAlert a, 127, false, false⟩ }
      | none =>
        match s.choice i with
        | none => s
        | some (.poll id) => s.sendPoll i id
        | some (.probe id) => s.setLine i { l with exch := some ⟨.select true, id, false, false⟩ }
        | some (.grant e) =>
          match s.panels.look e.panel with
          | none => s
          | some p =>
            if e.full || p.needsDraw then s.beginJob i e p
            else (s.setLine i { l with queue := removeEntry l.queue e.panel }).pick i n

/-- The arbiter picks on a line. -/
def State.arbitrate (s : State) (i : Fin 4) : State := s.pick i ((s.line i).queue.length + 1)

/-- Has an event given the arbiter of a free line work (R110): an exchange ended, an entry made, a slot freed, a
general alert made due? -/
def gaveWork (old new : LineUnit) : Bool :=
  new.exch.isNone && new.job.isNone &&
    (old.exch.isSome || old.job.isSome || new.queue ≠ old.queue || new.slots < old.slots ||
      (new.alert.isSome && new.alert ≠ old.alert))

def State.settleLine (s old : State) (i : Fin 4) : State :=
  if gaveWork (old.line i) (s.line i) then s.arbitrate i else s

/-- At the end of an event that began in `old`, the arbiter of every line that was given work picks (R110; log 16). -/
def State.settle (s old : State) : State :=
  (((s.settleLine old 0).settleLine old 1).settleLine old 2).settleLine old 3

/-! ### Line states (R107, R111) -/

/-- A panel enters a line state: COMMIT time and update deadline are held in UPDATING alone, and the next poll is due
by the interval of the new state (R106, R111). -/
def Panel.enter (p : Panel) (st : LineState) (u : Nat) : Panel :=
  Panel.schedule { p with line := { p.line with state := st, commitTime := none, deadline := none } } u

/-- A panel goes to FAULT for a reason (R107, R108). -/
def Panel.enterFault (p : Panel) (r : FaultReason) (u : Nat) : Panel :=
  Panel.enter { p with line := { p.line with reason := some r } } .fault u

/-- The report of a panel that goes to FAULT (R108). -/
def State.faultReport (s : State) (id : Nat) (r : FaultReason) (reported : Option Byte) : State :=
  s.report (.panelState id .fault (some r) reported s.seconds)

/-- The exchange of a line ends. -/
def LineUnit.endExchange (l : LineUnit) : LineUnit := { l with exch := none }

/-! ### What every good answer hands on (R60, R103, R127) -/

/-- A GUEST_REQUEST report (R60). -/
def State.guestReport (s : State) (k : GuestKind) (id : Nat) (src : GuestSource) : State :=
  s.report (.guestRequest k id src s.clock.m s.seconds)

/-- Toggle or write the DND flag: a change marks PLATE (R59, R60). -/
def Panel.setDnd (p : Panel) (c : Cabin) (d : Bool) : Panel × List Mark :=
  ({ p with content := { p.content with cabin := some { c with dnd := d } } },
    if c.dnd = d then [] else [(.plate, .content)])

/-- One button event (R60). -/
def State.button (s : State) (id : Nat) (b : Button) : State :=
  match (s.panels.look id).bind (·.content.cabin) with
  | none => s
  | some c =>
    match b with
    | .makeUp => s.guestReport .makeUp id .button
    | .dnd =>
      (s.passOne id .touched false fun _ p => p.setDnd c (!c.dnd)).guestReport
        (if c.dnd then .dndOff else .dndOn) id .button

/-- The button events of an answer in order (R60). -/
def State.buttons (s : State) (id : Nat) : List Button → State
  | [] => s
  | b :: bs => (s.button id b).buttons id bs

/-- The buttons, then the readings, then the next poll due at the end of the exchange (R103, R111, R127). -/
def State.handOn (s : State) (id : Nat) (r : Readings) : State :=
  let t := s.buttons id r.buttons
  t.updPanel id fun p =>
    (p.takeReadings t.params t.muster.level t.clock.u r.presence r.ambient).schedule t.clock.u

/-! ### Jobs that end without completion (R98, R118, R121) -/

/-- A job ends with a given miss count: the slot of an UPDATING DOOR is freed, the work returns to the DIRTY set, and
the panel becomes LIVE with a draw decision, or FAULT with its entry removed and a report (R98, R117, R118). -/
def State.endFailed (s : State) (i : Fin 4) (id : Nat) (p : Panel) (miss : Nat) (toFault : Bool) : State :=
  let updating : Bool := p.line.state = LineState.updating
  let forced := p.content.jobForced
  let p1 := Panel.returnWork { p with line := { p.line with miss := miss } }
  let free := fun l : LineUnit =>
    { l with
      job := if updating then l.job else none
      slots := if updating && p.decl.kind = PanelKind.door then l.slots - 1 else l.slots }
  if toFault then
    let p2 := p1.enterFault .misses s.clock.u
    (((s.setPanel id p2).updLine i fun l =>
      { free l with queue := removeEntry l.queue id }).faultReport id .misses none).musterNotice
  else
    let p2 := p1.enter .live s.clock.u
    (s.setPanel id p2).updLine i fun l => (free l).decideFor id p2 forced

/-- The failure of a draw job (R118; log 22). -/
def State.jobFails (s : State) (i : Fin 4) (id : Nat) (p : Panel) : State :=
  s.endFailed i id p (p.line.miss + 1) (Config.maxMisses ≤ p.line.miss + 1)

/-- The end of an abort (R121): a missing acknowledgement counts a miss. -/
def State.abortEnds (s : State) (i : Fin 4) (id : Nat) (p : Panel) (missing : Bool) : State :=
  if missing then s.endFailed i id p (p.line.miss + 1) (Config.maxMisses ≤ p.line.miss + 1)
  else s.endFailed i id p p.line.miss false

/-- A SELECT answer of the wrong kind in a job (R112): FAULT, the job discarded, nothing returned. -/
def State.jobWrongKind (s : State) (i : Fin 4) (id : Nat) (p : Panel) (kind : Byte) : State :=
  let p1 := p.endJob.enterFault .kindMismatch s.clock.u
  (((s.setPanel id p1).updLine i fun l =>
    { l with job := none, queue := removeEntry l.queue id }).faultReport id .kindMismatch (some kind)).musterNotice

/-! ### The steps of a job (R112 to R115, R121) -/

/-- The abort test (R121). -/
def abortTest (p : Panel) (visible : CompSet) (l : LineUnit) : Bool :=
  p.content.jobClass ≠ some .alert && !visible.alert && l.queue.any (·.cls = .alert)

/-- Send the job's next frame, or ABORT where the abort test says so (R121). -/
def State.sendOrAbort (s : State) (i : Fin 4) (id : Nat) (p : Panel) (visible : CompSet) (f : LineFrame) : State :=
  s.updLine i fun l =>
    { l with exch := some ⟨if abortTest p visible l then .abort else f, id, false, false⟩ }

/-- Send a composed page with the brightness of the moment (R112, R113, R133). -/
def State.sendPage (s : State) (i : Fin 4) (id : Nat) (p : Panel) (g : Page) : State :=
  let b := s.brightness p
  (s.updLine i fun l => { l with job := l.job.map fun j => { j with brightness := some b } }).sendOrAbort i id p
    g.visible (.page g b)

/-- A good SELECT answer of a job, handed on: composition, then PAGE or the end of the job (R93, R112). -/
def State.composeJob (s : State) (i : Fin 4) (id : Nat) (p : Panel) (a : SelectAnswer) : State :=
  match s.compose p a.held a.fresh with
  | (p', some g) => (s.setPanel id p').sendPage i id p' g
  | (p', none) =>
    (s.setPanel id (p'.enter .live s.clock.u)).updLine i fun l => { l with job := none }

/-- A SELECT answer of a job (R112). -/
def State.selectTaken (s : State) (i : Fin 4) (id : Nat) (a : SelectAnswer) : State :=
  let s1 := s.updLine i LineUnit.endExchange
  match s1.panels.look id with
  | none => s1
  | some p =>
    if a.kind.toNat ≠ p.decl.kind.code then s1.jobWrongKind i id p a.kind
    else
      let s2 := s1.handOn id a.readings
      match s2.panels.look id with
      | none => s2
      | some p2 => s2.composeJob i id p2 a

/-- A PAGE answer (R113). -/
def State.pageTaken (s : State) (i : Fin 4) (id : Nat) (a : PageAnswer) : State :=
  let s1 := s.updLine i LineUnit.endExchange
  match s1.panels.look id, (s.line i).job with
  | some p, some j =>
    match p.content.jobPage with
    | none => s1.jobFails i id p
    | some page =>
      match a with
      | .bad => s1.jobFails i id p
      | .ok => s1.sendOrAbort i id p page.visible .commit
      | .needFull =>
        if j.needFulls = 0 then
          let (p', g) := s1.recompose p page
          ((s1.setPanel id p').updLine i fun l =>
            { l with job := some { j with needFulls := 1 } }).sendPage i id p' g
        else s1.jobFails i id p
  | some _, none => s1
  | none, _ => s1

/-- A panel whose COMMIT is acknowledged (R114, R133). -/
def Panel.commit (p : Panel) (u : Nat) (brightness : Option Nat) : Panel :=
  { p with line := { p.line with
      state := .updating
      commitTime := some u
      deadline := some (u + if p.decl.kind = .door then Config.doorUpdateTime else Config.screenUpdateTime)
      nextPoll := some (u + Config.updatingPoll)
      brightness := brightness.orElse fun _ => p.line.brightness } }

/-- COMMIT acknowledged (R114): UPDATING, a slot for a DOOR, the line released. -/
def State.commitTaken (s : State) (i : Fin 4) (id : Nat) : State :=
  match s.panels.look id with
  | none => s
  | some p =>
    let b := (s.line i).job.bind (·.brightness)
    (s.setPanel id (p.commit s.clock.u b)).updLine i fun l =>
      { l with exch := none, job := none, slots := if p.decl.kind = .door then l.slots + 1 else l.slots }

/-- The line part and content record at a completion (R115 steps 1, 3 and 4, R97). -/
def Panel.complete (p : Panel) (u : Nat) : Panel :=
  let full := (p.content.jobPage.map (·.full)).getD false
  let l := { p.line with
    miss := 0
    partialCount := if full then 0 else min (p.line.partialCount + 1) Config.maxPartial
    lastFull := if full then some u else p.line.lastFull }
  (Panel.enter { p with line := l } .live u).completeJob

/-- A completion (R115): the line part, the slot, the shown record, the draw decision, the muster unit (log 27). -/
def State.completion (s : State) (i : Fin 4) (id : Nat) (p : Panel) : State :=
  let p1 := p.complete s.clock.u
  ((s.setPanel id p1).updLine i fun l =>
    ({ l with slots := if p.decl.kind = .door then l.slots - 1 else l.slots } : LineUnit).decideFor id p1 false).musterNotice

/-- A good POLL answer at the line part: last busy, and the brightness the panel took (R106, R133). -/
def Panel.polled (p : Panel) (busy : Bool) (b : Nat) : Panel :=
  { p with line := { p.line with lastBusy := some busy, brightness := some b } }

/-- A good POLL answer (R115, R119). One that finds the panel in neither LIVE nor UPDATING, after an update timeout, is
handed on and changes no miss count (R116; log 17). -/
def State.pollTaken (s : State) (i : Fin 4) (id b : Nat) (a : PollAnswer) : State :=
  let s1 := s.updLine i LineUnit.endExchange
  match s1.panels.look id with
  | none => s1
  | some p0 =>
    let p := p0.polled a.busy b
    if p.line.state = .updating && !a.busy then (s1.completion i id p).handOn id a.readings
    else if p.line.state = .live then
      (s1.setPanel id { p with line := { p.line with miss := 0 } }).handOn id a.readings
    else (s1.setPanel id p).handOn id a.readings

/-- A panel that answers its probe (R120). -/
def Panel.join (p : Panel) (u : Nat) : Panel :=
  Panel.enter { p with line := { p.line with miss := 0, reason := none } } .live u

/-- A good probe answer (R120): LIVE, a JOINED or RECOVERED report, the answer handed on, a forced draw of class
CONTENT. -/
def State.joinTaken (s : State) (id : Nat) (p : Panel) (a : SelectAnswer) : State :=
  let kind := if p.line.state = .fault then PanelReport.recovered else .joined
  ((((s.setPanel id (p.join s.clock.u)).report (.panelState id kind none none s.seconds)).handOn id
    a.readings).forcedDraw id .content).musterNotice

/-- A probe answer of the wrong kind (R120): FAULT, reported from ABSENT alone. -/
def State.probeWrongKind (s : State) (i : Fin 4) (id : Nat) (p : Panel) (kind : Byte) : State :=
  let s1 := (s.setPanel id (p.enterFault .kindMismatch s.clock.u)).updLine i fun l =>
    { l with queue := removeEntry l.queue id }
  if p.line.state = .fault then s1 else s1.faultReport id .kindMismatch (some kind)

/-- A probe answer (R120). -/
def State.probeTaken (s : State) (i : Fin 4) (id : Nat) (a : SelectAnswer) : State :=
  let s1 := s.updLine i LineUnit.endExchange
  match s1.panels.look id with
  | none => s1
  | some p =>
    if a.kind.toNat ≠ p.decl.kind.code then s1.probeWrongKind i id p a.kind else s1.joinTaken id p a

/-! ### Missing answers (R102, R118 to R121, R126) -/

/-- A POLL without an answer (R118, R119; in FAULT it counts no miss, log 17). -/
def State.pollMissing (s : State) (i : Fin 4) (id : Nat) (p : Panel) : State :=
  match p.line.state with
  | .updating => s.jobFails i id p
  | .live =>
    let p1 := { p with line := { p.line with miss := p.line.miss + 1 } }
    if p1.line.miss < Config.maxMisses then s.setPanel id (p1.schedule s.clock.u)
    else
      (((s.setPanel id (p1.enterFault .misses s.clock.u)).updLine i fun l =>
        { l with queue := removeEntry l.queue id }).faultReport id .misses none).musterNotice
  | .absent => s.setPanel id (p.schedule s.clock.u)
  | .fault => s.setPanel id (p.schedule s.clock.u)
  | .serving => s.setPanel id (p.schedule s.clock.u)

/-- The exchange of a withdrawn panel has ended (R126): ABORT follows a SELECT or PAGE of its job, and the line is
released after a COMMIT or ABORT. An ABORT that was in flight already is not sent again (log 40). -/
def LineUnit.orphanEnds (l : LineUnit) (x : Exchange) : LineUnit :=
  match x.frame with
  | .select false => { l with exch := some ⟨.abort, x.panel, true, false⟩ }
  | .page _ _ => { l with exch := some ⟨.abort, x.panel, true, false⟩ }
  | .commit => { l with exch := none, job := none }
  | .abort => { l with exch := none, job := none }
  | .select true => { l with exch := none }
  | .poll _ => { l with exch := none }
  | .generalAlert _ => { l with exch := none }

/-- An answer timeout that runs out for a panel that is still declared (R102). -/
def State.timeoutOf (s : State) (i : Fin 4) (id : Nat) (p : Panel) : LineFrame → State
  | .poll _ => s.pollMissing i id p
  | .select true => s.setPanel id (p.schedule s.clock.u)
  | .select false => s.jobFails i id p
  | .page _ _ => s.jobFails i id p
  | .commit => s.jobFails i id p
  | .abort => s.abortEnds i id p true
  | .generalAlert _ => s

/-- An answer timeout of a line (R102); a broadcast awaits none. -/
def State.timeout (s : State) (i : Fin 4) : State :=
  match (s.line i).exch with
  | none => s
  | some x =>
    match x.frame with
    | .generalAlert _ => s
    | f =>
      if x.orphan then s.updLine i (·.orphanEnds x)
      else
        let s1 := s.updLine i LineUnit.endExchange
        match s1.panels.look x.panel with
        | none => s1
        | some p => s1.timeoutOf i x.panel p f

/-! ### Withdrawal (R126) -/

/-- The exchange or job of a withdrawn panel runs on without it. -/
def LineUnit.orphan (l : LineUnit) (id : Nat) : LineUnit :=
  { l with
    exch := l.exch.map fun x => if x.panel = id then { x with orphan := true } else x
    job := l.job.map fun j => if j.panel = id then { j with orphan := true } else j }

/-- The line unit's part of a withdrawal (R126, R117): the entry removed, the exchange and job left without their
panel, the slot of an UPDATING DOOR held until its COMMIT time + 8 s. -/
def LineUnit.withdraw (l : LineUnit) (id : Nat) (p : Panel) : LineUnit :=
  let l1 := { l with queue := removeEntry l.queue id }.orphan id
  match p.line.state, p.decl.kind, p.line.commitTime with
  | .updating, .door, some c => { l1 with held := l1.held ++ [c + Config.doorUpdateTime] }
  | _, _, _ => l1

/-- The acknowledged COMMIT of a withdrawn panel: a DOOR's slot is taken and held at once (R126). -/
def LineUnit.orphanCommit (l : LineUnit) (u : Nat) : LineUnit :=
  if (l.job.map (·.door)).getD false then
    { l with exch := none, job := none, slots := l.slots + 1, held := l.held ++ [u + Config.doorUpdateTime] }
  else { l with exch := none, job := none }

/-- The earliest release time among the held slots, and the others (R117). -/
def earliestHeld : List Nat → Option (Nat × List Nat)
  | [] => none
  | t :: ts =>
    match earliestHeld ts with
    | none => some (t, [])
    | some (m, rest) => if m < t then some (m, t :: rest) else some (t, ts)

/-! ### The sweep (R123) -/

/-- The 6-bit bit reversal of k. -/
def bitReverse6 (k : Nat) : Nat :=
  (List.range 6).foldl (fun a j => if k.testBit j then a + 2 ^ (5 - j) else a) 0

/-- The drop a sweep step examines (R123). -/
def sweepDrop (o : SweepOrder) (k : Nat) : Nat :=
  match o with
  | .sequential => k
  | .interleaved => bitReverse6 k

/-- Is the panel refreshed by the sweep (R123)? -/
def Panel.stale (p : Panel) (u : Nat) : Bool :=
  p.decl.kind = .door && p.line.state = .live &&
    match p.line.lastFull with
    | none => true
    | some t => t + Config.sweepAge < u

/-! ### LINE_RESET (R124, R128) -/

/-- One panel of a line that is reset: its work returned, its line part ABSENT with its first probe due at once; the
partial count, last full, ambient class, last presence and ladder origin are kept. -/
def Panel.lineReset (p : Panel) (u : Nat) : Panel :=
  let q := p.returnWork
  { q with line := { q.line with
      state := .absent, reason := none, miss := 0, nextPoll := some u, commitTime := none, deadline := none,
      lastBusy := none, rest := .active, brightness := none } }

/-- The line unit after LINE_RESET: the next sweep step keeps its due time. -/
def LineUnit.reset (l : LineUnit) : LineUnit :=
  { l with queue := [], exch := none, job := none, slots := 0, held := [], sweepK := 0, alert := none }

/-- LINE_RESET of a line (R124). -/
def State.resetLine (s : State) (i : Fin 4) : State :=
  ({ s with
      panels := s.panels.mapVals fun id p => if lineOf id = i then p.lineReset s.clock.u else p
      lines := s.lines.modify i LineUnit.reset } : State).musterNotice

end Sys2Proof.Machine
end

