-- ==== Sys2Proof/Machine/Programme.lean ====
section
/-! DEFINITION. The programme unit: the event table, the lifecycle, the booking list, and the programme requests
(section 3). -/

namespace Sys2Proof.Machine

/-! ### The event table (R30) and the booking list (R41) -/

/-- The order of the event table (R30): by start, among equal starts by id. -/
def Event.before (a b : Event) : Bool := a.start < b.start || (a.start = b.start && a.id < b.id)

/-- Enter a record in the order of R30. -/
def insertEvent (e : Event) : List Event → List Event
  | [] => [e]
  | x :: xs => if e.before x then e :: x :: xs else x :: insertEvent e xs

/-- The event with an id. -/
def State.event (s : State) (id : Nat) : Option Event := s.events.find? fun e => e.id = id

/-- Write the record with the id of `e` in place: no field of its order changes. -/
def State.rewriteEvent (s : State) (e : Event) : State :=
  { s with events := s.events.map fun x => if x.id = e.id then e else x }

/-- How many pairs satisfy a test. -/
def State.countBookings (s : State) (f : Booking → Bool) : Nat := (s.bookings.filter f).length

/-- Remove the pairs that satisfy a test; the booking counts of their events decrease with them (R41, R45 to R47). -/
def State.dropBookings (s : State) (f : Booking → Bool) : State :=
  { s with
    bookings := s.bookings.filter fun b => !f b
    events := s.events.map fun e =>
      { e with bookings := e.bookings - s.countBookings fun b => f b && b.event = e.id } }

/-- Remove an event with every booking that names it (R35, R40, R45). -/
def State.removeEvent (s : State) (id : Nat) : State :=
  { s with
    events := s.events.filter fun e => e.id ≠ id
    bookings := s.bookings.filter fun b => b.event ≠ id }

/-! ### The lifecycle (R31 to R35) -/

def EventState.rank : EventState → Nat
  | .listed => 0
  | .soon => 1
  | .on => 2
  | .ended => 3

/-- The later of two states in the lifecycle order (R31). -/
def EventState.later (a b : EventState) : EventState := if a.rank < b.rank then b else a

/-- The target state at a ship minute (R31). -/
def targetState (start stop lead m : Nat) : EventState :=
  if stop ≤ m then .ended else if start ≤ m then .on else if start ≤ m + lead then .soon else .listed

def Event.target (e : Event) (m : Nat) : EventState := targetState e.start e.stop e.lead m

/-- The kind of the report of an advance (R34). -/
def advanceKind (old new : EventState) : EventReport :=
  if new = .ended ∧ (old = .listed ∨ old = .soon) then .skipped else .advanced

/-- One event's evaluation at a notice (R31, R34). -/
def State.advanceEvent (s : State) (cause : NoticeKind) (m : Nat) (e : Event) : State :=
  let new := e.state.later (e.target m)
  if new = e.state then s
  else (s.rewriteEvent { e with state := new }).report
    (.eventState (advanceKind e.state new) e.id e.state new m cause e.cancelled 0)

/-- One event's removal test (R35). -/
def State.lingerEvent (s : State) (cause : NoticeKind) (m : Nat) (e : Event) : State :=
  if e.state.later (e.target m) = .ended ∧ e.stop + e.linger ≤ m then
    (s.removeEvent e.id).report
      (.eventState .removed e.id .ended .ended m cause e.cancelled (s.countBookings fun b => b.event = e.id))
  else s

/-- The events of a notice in the order of R30: each evaluated, then tested for removal (R33). -/
def State.evaluateEvents (s : State) (cause : NoticeKind) (m : Nat) : List Event → State
  | [] => s
  | e :: es => ((s.advanceEvent cause m e).lingerEvent cause m e).evaluateEvents cause m es

/-- The programme unit's part of a clock notice (R32, R33): none while the ship minute is unset. -/
def State.programmeNotice (s : State) (cause : NoticeKind) : State :=
  match s.clock.m with
  | some m => s.evaluateEvents cause m s.events
  | none => s

/-! ### EVENT_POST (R36 to R38) -/

/-- The checks of R36, in its order. -/
def State.postChecks (s : State) (b : Bytes) : List (Bool × Code) :=
  let old := s.event (u16 b 0)
  let venue := if u8 b 2 ≤ 127 then s.dests.look (u8 b 2) else none
  [(u16 b 0 = 0, .badValue),
    (venue.isNone, .notFound),
    (venue.any fun d => d.kind = .station, .badValue),
    (7 < u8 b 3, .badValue),
    (Config.maxShipMinute < u32 b 4 || Config.maxShipMinute < u32 b 8, .badValue),
    (u32 b 8 ≤ u32 b 4 || Config.maxEventSpan < u32 b 8 - u32 b 4, .badValue),
    (u16 b 12 = 0 || 4095 < u16 b 12, .badValue),
    (old.any fun e => e.state = .ended, .eventClosed),
    (s.clock.m.any fun m => u32 b 8 ≤ m, .eventClosed),
    (old.isNone && Config.maxEvents ≤ s.events.length, .tableFull)]

/-- The lead taken (R36): 30 when absent, at most 240. -/
def takenLead (b : Bytes) : Nat :=
  match opt16 b 14 with
  | none => Config.defaultLead
  | some v => min v Config.maxLead

/-- The linger taken (R36): 15 when absent, at most 120. -/
def takenLinger (b : Bytes) : Nat :=
  match opt16 b 16 with
  | none => Config.defaultLinger
  | some v => min v Config.maxLinger

/-- Was the lead or the linger clamped (R36)? A default is not. -/
def postAdjusted (b : Bytes) : Bool :=
  ((opt16 b 14).any fun v => Config.maxLead < v) || ((opt16 b 16).any fun v => Config.maxLinger < v)

/-- The state of a posted event (R37, R38). -/
def State.postedState (s : State) (start stop lead : Nat) : EventState :=
  match s.clock.m with
  | some m => targetState start stop lead m
  | none => .listed

/-- The record a taken post enters; a replaced record passes on its booking count (R37, R38). -/
def State.postedEvent (s : State) (b : Bytes) : Event :=
  { id := u16 b 0, venue := u8 b 2, category := u8 b 3, start := u32 b 4, stop := u32 b 8, title := u16 b 12,
    lead := takenLead b, linger := takenLinger b, featured := flag b 18 0, bookingOnly := flag b 18 1,
    cancelled := false, state := s.postedState (u32 b 4) (u32 b 8) (takenLead b),
    bookings := ((s.event (u16 b 0)).map (·.bookings)).getD 0 }

/-- EVENT_POST at the programme unit. -/
def State.ownEventPost (b : Bytes) (s : State) : State × Answer :=
  match firstRefusal (s.postChecks b) with
  | some c => refuse s c
  | none =>
    let e := s.postedEvent b
    let replaced := (s.event e.id).isSome
    (({ s with events := insertEvent e (s.events.filter fun x => x.id ≠ e.id) } : State).agendas,
      some (if postAdjusted b then .adjusted else .done, .event e.lead e.linger e.state replaced))

/-- EVENT_POST (R36). -/
def execEventPost (tag : Byte) (body : Bytes) (s : State) : Host.Outcome State Fault Refusal :=
  .next ((s.request ⟨Kind.eventPost, tag, body⟩ (lengthIs 19 body) (State.ownEventPost body)).settle s)

/-! ### EVENT_CANCEL and EVENT_DROP (R39, R40) -/

/-- EVENT_CANCEL at the programme unit. -/
def State.ownEventCancel (b : Bytes) (s : State) : State × Answer :=
  match s.event (u16 b 0) with
  | none => refuse s .notFound
  | some e =>
    if e.state = .ended then refuse s .eventClosed
    else if e.cancelled then (s, some (.done, .empty))
    else ((s.rewriteEvent { e with cancelled := true }).agendas, some (.done, .empty))

/-- EVENT_CANCEL (R39). -/
def execEventCancel (tag : Byte) (body : Bytes) (s : State) : Host.Outcome State Fault Refusal :=
  .next ((s.request ⟨Kind.eventCancel, tag, body⟩ (lengthIs 2 body) (State.ownEventCancel body)).settle s)

/-- EVENT_DROP at the programme unit. -/
def State.ownEventDrop (b : Bytes) (s : State) : State × Answer :=
  match s.event (u16 b 0) with
  | none => refuse s .notFound
  | some e =>
    ((s.removeEvent e.id).agendas, some (.done, .count (s.countBookings fun k => k.event = e.id)))

/-- EVENT_DROP (R40). -/
def execEventDrop (tag : Byte) (body : Bytes) (s : State) : Host.Outcome State Fault Refusal :=
  .next ((s.request ⟨Kind.eventDrop, tag, body⟩ (lengthIs 2 body) (State.ownEventDrop body)).settle s)

/-! ### BOOKING_ADD and BOOKING_REMOVE (R42, R44) -/

/-- Is the panel declared as a DOOR? -/
def State.isDoor (s : State) (id : Nat) : Bool := (s.panels.look id).any fun p => p.decl.kind = .door

/-- The checks of R42 that stand before the check for the pair. -/
def State.addChecks (s : State) (b : Bytes) : List (Bool × Code) :=
  [(255 < u16 b 0, .badValue),
    ((s.event (u16 b 2)).isNone, .notFound),
    (!s.isDoor (u16 b 0), .notFound),
    ((s.event (u16 b 2)).any fun e => e.state = .ended, .eventClosed)]

/-- The limits of R42. -/
def State.addLimits (s : State) (b : Bytes) : List (Bool × Code) :=
  [(Config.maxBookingsPerPanel ≤ s.countBookings fun k => k.panel = u16 b 0, .tableFull),
    (Config.maxBookings ≤ s.bookings.length, .tableFull)]

/-- Add a pair and count it at its event (R41, R42). -/
def State.addBooking (s : State) (k : Booking) : State :=
  { s with
    bookings := s.bookings ++ [k]
    events := s.events.map fun e => if e.id = k.event then { e with bookings := e.bookings + 1 } else e }

/-- BOOKING_ADD at the programme unit. -/
def State.ownBookingAdd (b : Bytes) (s : State) : State × Answer :=
  let k : Booking := ⟨u16 b 0, u16 b 2⟩
  match firstRefusal (s.addChecks b) with
  | some c => refuse s c
  | none =>
    if s.bookings.contains k then (s, some (.done, .empty))
    else
      match firstRefusal (s.addLimits b) with
      | some c => refuse s c
      | none => ((s.addBooking k).agendas, some (.done, .empty))

/-- BOOKING_ADD (R42). -/
def execBookingAdd (tag : Byte) (body : Bytes) (s : State) : Host.Outcome State Fault Refusal :=
  .next ((s.request ⟨Kind.bookingAdd, tag, body⟩ (lengthIs 4 body) (State.ownBookingAdd body)).settle s)

/-- BOOKING_REMOVE at the programme unit. -/
def State.ownBookingRemove (b : Bytes) (s : State) : State × Answer :=
  let k : Booking := ⟨u16 b 0, u16 b 2⟩
  if 255 < u16 b 0 then refuse s .badValue
  else if s.bookings.contains k then
    ((s.dropBookings fun x => x = k).agendas, some (.done, .removed true))
  else (s, some (.done, .removed false))

/-- BOOKING_REMOVE (R44). -/
def execBookingRemove (tag : Byte) (body : Bytes) (s : State) : Host.Outcome State Fault Refusal :=
  .next ((s.request ⟨Kind.bookingRemove, tag, body⟩ (lengthIs 4 body) (State.ownBookingRemove body)).settle s)

end Sys2Proof.Machine
end

