-- ==== Sys2Proof/Machine/Clock.lean ====
section
/-! DEFINITION. The clock unit: run time, reference time, offset changes, clock notices, and the clock commands
(section 2). -/

namespace Sys2Proof.Machine

/-- The ship minute of a reference time and an offset (R21). -/
def shipMinute (r : Nat) (o : Int) : Nat := (((r : Int) + 60 * o) / 60).toNat

/-- M recomputed from R, O and the clock-set flag (R21). -/
def Clock.recompute (c : Clock) : Clock := { c with m := if c.set then some (shipMinute c.r c.offset) else none }

/-- A clock notice (R22): the programme unit first, then the content unit. -/
def State.notice (s : State) (kind : NoticeKind) : State := (s.programmeNotice kind).clockPass

/-- An offset change applied (R24, steps 1 to 4). -/
def State.applyOffset (s : State) (offset : Int) (cause : ClockCause) : State :=
  let c := { s.clock with offset := offset, change := none }.recompute
  ({ s with clock := c } : State).report (.clock cause c.r s.clock.offset offset c.m c.set)

/-! ### ADVANCE (R19, R20, R23) -/

/-- The next whole second of run time (R19; log 24). -/
def nextSecond (u : Nat) : Nat := min (1000 * (u / 1000 + 1)) (1000 * Config.maxSeconds)

/-- Reference time after an advance (R20, R23; log 24). -/
def nextReference (r : Nat) : Nat := if r < Config.maxSeconds then r + 1 else r

/-- The advance of R (R23). -/
def State.advanceR (s : State) : State :=
  let c := { s.clock with r := nextReference s.clock.r }
  let plain : State :=
    let t : State := { s with clock := c.recompute }
    if c.set && t.clock.m ≠ s.clock.m then t.notice .minute else t
  match c.change with
  | some ch =>
    if c.r = ch.effective then (({ s with clock := c } : State).applyOffset ch.offset .advance).notice .offset
    else plain
  | none => plain

/-- ADVANCE (R19, R23): run time comes to its next whole second. -/
def execAdvance (s : State) : Host.Outcome State Fault Refusal :=
  .next ((({ s with clock := { s.clock with u := nextSecond s.clock.u } } : State).advanceR).settle s)

/-! ### TIME_SET (R25) -/

/-- TIME_SET at the clock unit. -/
def State.ownTimeSet (b : Bytes) (s : State) : State × Answer :=
  let c := { s.clock with r := u32 b 0, set := true }
  let plain : State := { s with clock := c.recompute }
  let t := match c.change with
    | some ch =>
      if ch.effective ≤ c.r then ({ s with clock := c } : State).applyOffset ch.offset .timeSet else plain
    | none => plain
  (t.notice .set, some (.done, .empty))

/-- TIME_SET (R25). -/
def execTimeSet (tag : Byte) (body : Bytes) (s : State) : Host.Outcome State Fault Refusal :=
  .next ((s.request ⟨Kind.timeSet, tag, body⟩ (lengthIs 4 body) (State.ownTimeSet body)).settle s)

/-! ### OFFSET_SET (R26) -/

/-- Is a new offset one of the 105 values? -/
def offsetOk (o : Int) : Bool := o % 15 = 0 && -720 ≤ o && o ≤ 840

/-- OFFSET_SET at the clock unit. -/
def State.ownOffsetSet (b : Bytes) (s : State) : State × Answer :=
  let o := s16 b 0
  let re := u32 b 2
  let replaced := s.clock.change.isSome
  if !offsetOk o then refuse s .badValue
  else if re ≤ s.clock.r then
    ((s.applyOffset o .offsetSet).notice .offset, some (.done, .offset .applied replaced o))
  else
    ({ s with clock := { s.clock with change := some ⟨o, re⟩ } },
      some (.done, .offset .pending replaced s.clock.offset))

/-- OFFSET_SET (R26). -/
def execOffsetSet (tag : Byte) (body : Bytes) (s : State) : Host.Outcome State Fault Refusal :=
  .next ((s.request ⟨Kind.offsetSet, tag, body⟩ (lengthIs 6 body) (State.ownOffsetSet body)).settle s)

end Sys2Proof.Machine
end

