-- ==== Sys2Proof/Machine/Zone.lean ====
section
/-! DEFINITION. The zone tables: the kit requests, declaring and withdrawing a panel, and NODE_STATE (section 1; R65,
R68, R89, R100, R126). -/

namespace Sys2Proof.Machine

/-- Run a kit request's own part unless a checkpoint is in flight (R2, step 2). -/
def State.unlessBusy (s : State) (own : State × Answer) : State × Answer :=
  if s.busy then refuse s .storeBusy else own

/-! ### ZONE_SET (R4) -/

/-- The zone parameters as taken (R4). -/
def takenParams (b : Bytes) (order : SweepOrder) : ZoneParams :=
  { zone := u8 b 0
    primaryLang := u8 b 1
    hysteresis := clamp 0 8 (u8 b 2)
    runTime := clamp 10 600 (u16 b 3)
    rest1 := clamp 10 3600 (u16 b 5)
    rest2 := clamp 60 14400 (u16 b 7)
    dwell := clamp 5 60 (u8 b 9)
    sweepInterval := clamp 10 600 (u16 b 10)
    sweepOrder := order
    coverageDeadline := clamp 10 300 (u16 b 13) }

/-- Was none of the seven clamped parameters moved? -/
def ZoneParams.asSent (z : ZoneParams) (b : Bytes) : Bool :=
  z.hysteresis = u8 b 2 && z.runTime = u16 b 3 && z.rest1 = u16 b 5 && z.rest2 = u16 b 7 && z.dwell = u8 b 9
    && z.sweepInterval = u16 b 10 && z.coverageDeadline = u16 b 13

/-- The reply of a taken ZONE_SET (R4). -/
def ZoneParams.answer (z : ZoneParams) (b : Bytes) : Code × ReplyBody :=
  if z.asSent b then (.done, .empty)
  else (.adjusted, .zone z.hysteresis z.runTime z.rest1 z.rest2 z.dwell z.sweepInterval z.coverageDeadline)

/-- ZONE_SET at the zone tables; a zone number of one byte is never above 255. -/
def State.ownZoneSet (b : Bytes) (s : State) : State × Answer :=
  s.unlessBusy <|
    if 7 < u8 b 1 then refuse s .badValue
    else
      match sweepOrderOf (u8 b 12) with
      | none => refuse s .badValue
      | some o =>
        let z := takenParams b o
        ({ s with params := z }, some (z.answer b))

/-- ZONE_SET (R4). -/
def execZoneSet (tag : Byte) (body : Bytes) (s : State) : Host.Outcome State Fault Refusal :=
  .next ((s.request ⟨Kind.zoneSet, tag, body⟩ (lengthIs 15 body) (State.ownZoneSet body)).settle s)

/-! ### A panel's records at creation (R100, R106, R128) -/

/-- A blank cabin part (R58). -/
def Cabin.blank (lang : Nat) : Cabin := { occupant := none, lang := lang, dnd := false }

/-- The line part at its creation (R106, R128). -/
def LinePart.initial (u : Nat) : LinePart :=
  { state := .absent, reason := none, miss := 0, nextPoll := some u, partialCount := Config.maxPartial,
    lastFull := none, commitTime := none, deadline := none, lastBusy := none, rest := .active, ambient := 5,
    lastPresence := none, origin := u, brightness := none }

/-- The content record at its creation, before its in-use and DIRTY sets are formed (R100; log 30). -/
def Content.initial (kind : PanelKind) (lang due : Nat) : Content :=
  { inUse := .nil, dirty := .nil, inFlight := .nil, jobClass := none, jobForced := false, jobPage := none,
    shown := { set := .nil, banner := none, lang := none, held := .nil }, rows := [], notice := none,
    cabin := if kind = .door then some (.blank lang) else none,
    rotation := if kind.isScreen then some { index := 0, due := some due } else none }

/-- The agenda slots of a declaration before any row is chosen: none, or four with destination none (R52, R83). -/
def Decl.emptyAgendaSlots (d : Decl) : List Slot := if d.hasAgendaSlots then List.replicate 4 .empty else []

/-- The DIRTY set at creation (R100): every component of V, with class CONTENT, ALERT with class ALERT. -/
def Panel.firstMarks (p : Panel) : List Mark :=
  p.visible.members.map fun c => (c, if c = .alert then .alert else .content)

/-- A panel that comes into being: slots computed without a previous arrow, content record and line part at their
creation values (R9, R68, R83, R100, R106). The computation of its slots marks nothing (log 21). -/
def State.newPanel (s : State) (d : Decl) (guide : List Nat) (pins : List Pin) : Panel :=
  let bare : Panel :=
    { decl := d, guide := guide, pins := pins, guideSlots := [], agendaSlots := d.emptyAgendaSlots,
      alertSlot := .empty, content := .initial d.kind s.params.primaryLang s.rotationDue,
      line := .initial s.clock.u }
  let p := ((bare.routePass s.routeEnv).1).refresh s.muster.level s.clock.set
  p.mark p.firstMarks

/-! ### PANEL_WITHDRAW (R10, R46, R126, R141, R148) -/

/-- A line that has lost its last panel during a drill or muster has its general alert due at once (R148). -/
def State.alertAfterWithdraw (s : State) (i : Fin 4) : State :=
  if s.muster.level.alarmed && !s.hasPanels i then
    { s with muster := { s.muster with alertDue := s.muster.alertDue.set i (some s.clock.u) } }
  else s

/-- Remove the bookings of a panel (R46, R47), with the programme change when there were any (R48). -/
def State.dropPanelBookings (s : State) (id : Nat) : State :=
  if s.bookings.any fun b => b.panel = id then (s.dropBookings fun b => b.panel = id).agendas else s

/-- The muster unit at the withdrawal of a panel (R141, R145). -/
def State.musterWithdrawal (s : State) (p : Panel) : State :=
  if p.line.state.inService then s.musterNotice else s.restoreTest

/-- Every effect of a withdrawal (R10). -/
def State.withdrawPanel (s : State) (id : Nat) (p : Panel) : State :=
  let t := ({ s with panels := s.panels.del id } : State).updLine (lineOf id) fun l => l.withdraw id p
  ((t.dropPanelBookings id).alertAfterWithdraw (lineOf id)).musterWithdrawal p

/-- PANEL_WITHDRAW at the zone tables. -/
def State.ownPanelWithdraw (b : Bytes) (s : State) : State × Answer :=
  s.unlessBusy <|
    if 255 < u16 b 0 then refuse s .badValue
    else
      match s.panels.look (u16 b 0) with
      | none => refuse s .notFound
      | some p => (s.withdrawPanel (u16 b 0) p, some (.done, .empty))

/-- PANEL_WITHDRAW (R10). -/
def execPanelWithdraw (tag : Byte) (body : Bytes) (s : State) : Host.Outcome State Fault Refusal :=
  .next ((s.request ⟨Kind.panelWithdraw, tag, body⟩ (lengthIs 2 body) (State.ownPanelWithdraw body)).settle s)

/-! ### PANEL_DECLARE: the fields (R1, R7, R8) -/

/-- The language codes of the body: as many of the four places as the count names. -/
def declLangs (b : Bytes) : List Nat := bytesAt b 19 (min (u8 b 18) 4)

def declText (b : Bytes) : Bytes := slice b 26 (u8 b 25)

/-- The position as taken: trim and radius clamped, an absent radius 30 (R1, 1.4). -/
def declPosition (b : Bytes) : Option Position :=
  if u8 b 4 = 0xFF then none
  else some
    { deck := u8 b 4, x := u16 b 5, y := s16 b 7, quadrant := u8 b 9, trim := clampTrim (s16 b 10)
      radius := min ((opt16 b 12).getD Config.defaultRadius) 255 }

/-- Is the position, when present, in range (R1)? -/
def declPositionOk (b : Bytes) : Bool :=
  u8 b 4 = 0xFF || (deckOk (u8 b 4) && xOk (u16 b 5) && yOk (s16 b 7) && u8 b 9 ≤ 3)

/-- The third fitted-set rule (R8): on a screen AGENDA is dropped without GUIDE. -/
def fittedTaken (kind : PanelKind) (f : CompSet) : CompSet :=
  if kind.isScreen && !f.guide then { f with agenda := false } else f

/-- The declaration as taken. -/
def declOf (b : Bytes) (kind : PanelKind) : Decl :=
  { kind := kind, fitted := fittedTaken kind (.ofByte (b.getD 3 0)), position := declPosition b, station := u8 b 14,
    mask := b.getD 15 0, venue := opt8 b 16, ownNode := opt8 b 17, langs := declLangs b, platePhrase := u16 b 23,
    plateText := declText b }

/-- A destination of a given index, within the table's 128 slots. -/
def State.destAt (s : State) (i : Nat) : Option Dest := if i ≤ 127 then s.dests.look i else none

/-- A node of a given index, within the table's 32 slots. -/
def State.nodeAt (s : State) (i : Nat) : Option Node := if i ≤ 31 then s.nodes.look i else none

/-- Is the list free of a value that stands twice? -/
def distinct : List Nat → Bool
  | [] => true
  | x :: xs => !xs.contains x && distinct xs

/-- May a node be the own node of a LANDING on a deck (R7, R13)? -/
def NodeDef.ownNodeOk (n : NodeDef) (deck : Nat) : Bool :=
  n.kind ≠ .zoneDoor && n.deckLo ≤ deck && deck ≤ n.deckHi

/-- The checks of R7 after the kind, in its order. A venue index of 128..254 names no slot of the table and is answered
NOT_FOUND, as R7 answers the station's (log 34). -/
def State.declareChecks (s : State) (b : Bytes) (kind : PanelKind) : List (Bool × Code) :=
  let f := CompSet.ofByte (b.getD 3 0)
  let station := s.destAt (u8 b 14)
  let venue := opt8 b 16
  let own := opt8 b 17
  [(!declPositionOk b, .badValue),
    (station.isNone, .notFound),
    (station.any fun d => d.kind ≠ .station, .badValue),
    (kind = .door && (b.getD 15 0 ≠ 0 || u8 b 18 ≠ 0), .badValue),
    (kind.isScreen &&
      (u8 b 18 = 0 || 4 < u8 b 18 || (declLangs b).any (7 < ·) || !distinct (declLangs b)), .badValue),
    (decide (kind = .venue) != venue.isSome, .badValue),
    (venue.any fun v => (s.destAt v).isNone, .notFound),
    (venue.any fun v => (s.destAt v).any fun d => d.kind ≠ .venue, .badValue),
    (own.isSome && (kind ≠ .landing || u8 b 4 = 0xFF), .badValue),
    (own.any fun n => (s.nodeAt n).isNone, .notFound),
    (own.any fun n => (s.nodeAt n).any fun x => !x.spec.ownNodeOk (u8 b 4), .badValue),
    (4095 < u16 b 23 || (declText b).any fun c => !printable c, .badValue),
    (!f.plate || !f.alert, .fitRule),
    (f.guide && u8 b 4 = 0xFF, .fitRule)]

/-- Was a value clamped or a component dropped (R1, R8)? -/
def declAdjusted (b : Bytes) (d : Decl) : Bool :=
  d.fitted ≠ .ofByte (b.getD 3 0) ||
    (u8 b 4 ≠ 0xFF && (clampTrim (s16 b 10) ≠ s16 b 10 || (opt16 b 12).any (255 < ·)))

/-- The reply of a taken PANEL_DECLARE (R2, R8). -/
def declAnswer (b : Bytes) (d : Decl) : Code × ReplyBody :=
  if declAdjusted b d then
    (.adjusted, .declare d.fitted (d.position.map (·.trim)) (d.position.map (·.radius)))
  else (.done, .empty)

/-! ### PANEL_DECLARE: the effects (R9, R55, R61, R68, R89, R105, R148) -/

/-- The fitted set's change at the content record (R89). -/
def Panel.refit (p : Panel) (new : CompSet) : Panel × List Mark :=
  let leaving := p.decl.fitted.diff new
  let joining := new.diff p.decl.fitted
  let lost := leaving.inter p.content.shown.set
  ({ p with content := { p.content with
      dirty := p.content.dirty.remove leaving
      jobPage := p.content.jobPage.map fun j => { j with removed := j.removed.union leaving }
      shown := { p.content.shown with set := p.content.shown.set.diff leaving } } },
    joining.marks .content ++ if lost = .nil then [] else [(.plate, .content)])

/-- The collections that a component's leaving empties, and the agenda slots of a component that joins (R9, R49, R52,
R55, R63). -/
def Panel.redeclared (p : Panel) (d : Decl) : Panel :=
  { p with
    decl := d
    guide := if d.fitted.guide then p.guide else []
    pins := if d.fitted.guide then p.pins else []
    guideSlots := if d.fitted.guide then p.guideSlots else []
    agendaSlots := if d.hasAgendaSlots && p.decl.hasAgendaSlots then p.agendaSlots else d.emptyAgendaSlots
    content := { p.content with
      notice := if d.fitted.notice then p.content.notice else none
      rows := if d.fitted.agenda then p.content.rows else [] } }

/-- A screen's rotation after its language list changed (R61): none is due while rotation is suspended. -/
def State.rotationReset (s : State) : Rotation :=
  { index := 0, due := if s.muster.level.alarmed then none else some s.rotationDue }

/-- The language list of a screen changes (R61). -/
def State.relanguage (s : State) (old : Decl) (_id : Nat) (p : Panel) : Panel × List Mark :=
  match p.content.rotation with
  | none => (p, [])
  | some r =>
    if old.langs = p.decl.langs then (p, [])
    else
      ({ p with content := { p.content with rotation := some s.rotationReset } },
        if old.langs.getD r.index 0 = p.decl.langs.getD 0 0 then [] else p.visible.marks .rotation)

/-- A plate whose text or phrase changes is marked (6.3; log 20). -/
def plateMarks (old new : Decl) : List Mark :=
  if old.plateText = new.plateText ∧ old.platePhrase = new.platePhrase then [] else [(.plate, .content)]

/-- A redeclaration of the same kind at the panel's records (R9). -/
def State.redeclare (s : State) (d : Decl) (id : Nat) (p : Panel) : Panel × List Mark :=
  let (p1, m1) := p.refit d.fitted
  let p2 := (p1.redeclared d).refresh s.muster.level s.clock.set
  let (p3, m3) := s.relanguage p.decl id p2
  let (p4, m4) := s.routeAgendaPass .other id p3
  (p4, m1 ++ plateMarks p.decl d ++ m3 ++ m4)

/-- A first declaration of an id (R9): the records created, then the agenda evaluated. -/
def State.declareNew (s : State) (id : Nat) (d : Decl) : State :=
  (s.setPanel id (s.newPanel d [] [])).passOne id .always false (s.agendaPass .other)

/-- A line on which a panel is declared has no general alert due or pending (R105, R148; log 29). -/
def State.alertAfterDeclare (s : State) (i : Fin 4) : State :=
  ({ s with muster := { s.muster with alertDue := s.muster.alertDue.set i none } } : State).updLine i fun l =>
    { l with alert := none }

/-- A taken declaration (R9). -/
def State.declarePanel (s : State) (id : Nat) (d : Decl) : State :=
  let t := match s.panels.look id with
    | none => s.declareNew id d
    | some p =>
      if p.decl.kind = d.kind then s.passOne id .always false (s.redeclare d)
      else (s.withdrawPanel id p).declareNew id d
  t.alertAfterDeclare (lineOf id)

/-- PANEL_DECLARE at the zone tables. -/
def State.ownPanelDeclare (b : Bytes) (s : State) : State × Answer :=
  s.unlessBusy <|
    if 255 < u16 b 0 then refuse s .badValue
    else
      match panelKindOf (u8 b 2) with
      | none => refuse s .badValue
      | some kind =>
        match firstRefusal (s.declareChecks b kind) with
        | some c => refuse s c
        | none => (s.declarePanel (u16 b 0) (declOf b kind), some (declAnswer b (declOf b kind)))

/-- PANEL_DECLARE (R9). -/
def execPanelDeclare (tag : Byte) (body : Bytes) (s : State) : Host.Outcome State Fault Refusal :=
  .next ((s.request ⟨Kind.panelDeclare, tag, body⟩ (lengthDeclare body) (State.ownPanelDeclare body)).settle s)

/-! ### GUIDE_SET (R11, R68) -/

def guideOf (b : Bytes) : List Nat := bytesAt b 4 (u8 b 2)

/-- `n` pins from offset `i`. -/
def pinsAt (b : Bytes) (i : Nat) : Nat → List Pin
  | 0 => []
  | n + 1 =>
    { dest := u8 b i, arrow := u8 b (i + 1), via := opt8 b (i + 2), hold := flag b (i + 3) 0 } :: pinsAt b (i + 4) n

def pinsOf (b : Bytes) : List Pin := pinsAt b (4 + u8 b 2) (u8 b 3)

/-- The checks of R11 after the panel's declaration, in its order. -/
def State.guideChecks (s : State) (b : Bytes) (p : Panel) : List (Bool × Code) :=
  let ds := guideOf b
  let ps := pinsOf b
  [(!p.decl.fitted.guide, .fitRule),
    (ds.any (fun d => (s.destAt d).isNone) || ps.any fun x => (s.destAt x.dest).isNone, .notFound),
    (!distinct ds || !distinct (ps.map (·.dest)), .badValue),
    (ps.any fun x => 7 < x.arrow, .badValue),
    (ps.any fun x => x.via.any fun n => (s.nodeAt n).isNone, .notFound)]

/-- New lists at a panel's records: its slots computed, then its agenda and in-use set (R11, R68, R85). -/
def State.reguide (s : State) (guide : List Nat) (pins : List Pin) (id : Nat) (p : Panel) : Panel × List Mark :=
  s.routeAgendaPass .other id (({ p with guide := guide, pins := pins } : Panel).refresh s.muster.level s.clock.set)

/-- GUIDE_SET at the zone tables. The draw decision is taken whether or not a component was marked or V changed (R11;
log 36). -/
def State.ownGuideSet (b : Bytes) (s : State) : State × Answer :=
  s.unlessBusy <|
    if 255 < u16 b 0 then refuse s .badValue
    else
      match s.panels.look (u16 b 0) with
      | none => refuse s .notFound
      | some p =>
        match firstRefusal (s.guideChecks b p) with
        | some c => refuse s c
        | none =>
          (s.passOne (u16 b 0) .always false (s.reguide (guideOf b) (pinsOf b)), some (.done, .empty))

/-- GUIDE_SET (R11). -/
def execGuideSet (tag : Byte) (body : Bytes) (s : State) : Host.Outcome State Fault Refusal :=
  .next ((s.request ⟨Kind.guideSet, tag, body⟩ (lengthGuide body) (State.ownGuideSet body)).settle s)

/-! ### NODE_SET and NODE_STATE (R12, R13, R65) -/

/-- The node of a NODE_SET body. -/
def nodeDefOf (b : Bytes) (kind : NodeKind) (init : NodeState) : NodeDef :=
  { kind := kind, deckLo := u8 b 2, deckHi := u8 b 3, x := u16 b 4, y := s16 b 6, initial := init }

/-- Are a node's decks and coordinates in range (R1, R12)? -/
def nodeRangeOk (b : Bytes) (kind : NodeKind) : Bool :=
  deckOk (u8 b 2) && deckOk (u8 b 3) && u8 b 2 ≤ u8 b 3 && (kind ≠ .zoneDoor || u8 b 2 = u8 b 3)
    && xOk (u16 b 4) && yOk (s16 b 6)

/-- Is a node a portal of the destination? -/
def Dest.hasPortal (d : Dest) (i : Nat) : Bool :=
  match d.loc with
  | .inZone _ _ _ => false
  | .portals ns => ns.contains i

/-- Would a redefined node break a reference to it (R13)? -/
def State.breaksNodeRef (s : State) (i : Nat) (n : NodeDef) : Bool :=
  (n.kind ≠ .zoneDoor && s.dests.exists? fun _ d => d.hasPortal i) ||
    s.panels.exists? fun _ p =>
      p.decl.ownNode = some i && !(p.decl.position.any fun q => n.ownNodeOk q.deck)

/-- Write a node slot (R12): the current state of an occupied slot is kept. -/
def State.writeNode (s : State) (i : Nat) (n : NodeDef) : State :=
  { s with nodes := s.nodes.put i ⟨n, ((s.nodes.look i).map (·.current)).getD n.initial⟩ }

/-- NODE_SET at the zone tables. -/
def State.ownNodeSet (b : Bytes) (s : State) : State × Answer :=
  s.unlessBusy <|
    match nodeKindOf (u8 b 1), nodeStateOf (u8 b 8) with
    | some kind, some init =>
      if 31 < u8 b 0 || !nodeRangeOk b kind then refuse s .badValue
      else if (s.nodes.look (u8 b 0)).isSome && s.breaksNodeRef (u8 b 0) (nodeDefOf b kind init) then
        refuse s .badValue
      else ((s.writeNode (u8 b 0) (nodeDefOf b kind init)).bumpEpoch, some (.done, .empty))
    | none, _ => refuse s .badValue
    | some _, none => refuse s .badValue

/-- NODE_SET (R12). -/
def execNodeSet (tag : Byte) (body : Bytes) (s : State) : Host.Outcome State Fault Refusal :=
  .next ((s.request ⟨Kind.nodeSet, tag, body⟩ (lengthIs 9 body) (State.ownNodeSet body)).settle s)

/-- NODE_STATE at the route unit. -/
def State.ownNodeState (b : Bytes) (s : State) : State × Answer :=
  match s.nodeAt (u8 b 0) with
  | none => refuse s .notFound
  | some n =>
    match nodeStateOf (u8 b 1) with
    | none => refuse s .badValue
    | some st =>
      if n.current = st then (s, some (.done, .changed false))
      else
        (({ s with nodes := s.nodes.put (u8 b 0) { n with current := st } } : State).bumpEpoch,
          some (.done, .changed true))

/-- NODE_STATE (R65). -/
def execNodeState (tag : Byte) (body : Bytes) (s : State) : Host.Outcome State Fault Refusal :=
  .next ((s.request ⟨Kind.nodeState, tag, body⟩ (lengthIs 2 body) (State.ownNodeState body)).settle s)

/-! ### DEST_SET and DEST_DROP (R14 to R16) -/

/-- The portals of a body: as many of the two places as the count names. -/
def portalsOf (b : Bytes) : List Nat := bytesAt b 10 (min (u8 b 9) 2)

/-- The destination of a DEST_SET body. -/
def destOf (b : Bytes) (kind : DestKind) : Dest :=
  { kind := kind, name := u16 b 2
    loc := if u8 b 4 = 0xFF then .portals (portalsOf b) else .inZone (u8 b 4) (u16 b 5) (s16 b 7)
    letter := opt8 b 12 }

/-- Would a destination of another kind break a reference (R15)? -/
def State.breaksDestRef (s : State) (i : Nat) (kind : DestKind) : Bool :=
  (kind ≠ .station && s.panels.exists? fun _ p => p.decl.station = i) ||
    (kind ≠ .venue && s.panels.exists? fun _ p => p.decl.venue = some i) ||
    (kind = .station && s.events.any fun e => e.venue = i)

/-- The checks of R14 after index, kind and name, in its order. With deck 0xFF, the in-zone location absent, x and y are
not examined (log 35). -/
def State.destChecks (s : State) (b : Bytes) (kind : DestKind) : List (Bool × Code) :=
  let inZone : Bool := u8 b 4 ≠ 0xFF
  let letter := opt8 b 12
  [(inZone == decide (u8 b 9 ≠ 0), .badValue),
    (inZone && !(deckOk (u8 b 4) && xOk (u16 b 5) && yOk (s16 b 7)), .badValue),
    (!inZone && (2 < u8 b 9 || !distinct (portalsOf b)), .badValue),
    (!inZone && (portalsOf b).any fun n => (s.nodeAt n).isNone, .notFound),
    (!inZone && (portalsOf b).any fun n => (s.nodeAt n).any fun x => x.spec.kind ≠ .zoneDoor, .badValue),
    ((decide (kind = .station) != letter.isSome) || letter.any (15 < ·), .badValue),
    (kind = .station && s.dests.exists? fun j d => j ≠ u8 b 0 && d.kind = .station && d.letter = letter, .badValue),
    ((s.dests.look (u8 b 0)).isSome && s.breaksDestRef (u8 b 0) kind, .inUse)]

/-- DEST_SET at the zone tables. -/
def State.ownDestSet (b : Bytes) (s : State) : State × Answer :=
  s.unlessBusy <|
    match destKindOf (u8 b 1) with
    | none => refuse s .badValue
    | some kind =>
      if 127 < u8 b 0 || u16 b 2 = 0 || 4095 < u16 b 2 then refuse s .badValue
      else
        match firstRefusal (s.destChecks b kind) with
        | some c => refuse s c
        | none =>
          (({ s with dests := s.dests.put (u8 b 0) (destOf b kind) } : State).bumpEpoch, some (.done, .empty))

/-- DEST_SET (R14). -/
def execDestSet (tag : Byte) (body : Bytes) (s : State) : Host.Outcome State Fault Refusal :=
  .next ((s.request ⟨Kind.destSet, tag, body⟩ (lengthIs 13 body) (State.ownDestSet body)).settle s)

/-- Is a destination named by a declaration, a guide list, a pin or an event (R16)? -/
def State.destInUse (s : State) (i : Nat) : Bool :=
  s.panels.exists? (fun _ p =>
    p.decl.station = i || p.decl.venue = some i || p.guide.contains i || p.pins.any fun x => x.dest = i) ||
    s.events.any fun e => e.venue = i

/-- DEST_DROP at the zone tables. -/
def State.ownDestDrop (b : Bytes) (s : State) : State × Answer :=
  s.unlessBusy <|
    if 127 < u8 b 0 then refuse s .badValue
    else if (s.dests.look (u8 b 0)).isNone then refuse s .notFound
    else if s.destInUse (u8 b 0) then refuse s .inUse
    else (({ s with dests := s.dests.del (u8 b 0) } : State).bumpEpoch, some (.done, .empty))

/-- DEST_DROP (R16). -/
def execDestDrop (tag : Byte) (body : Bytes) (s : State) : Host.Outcome State Fault Refusal :=
  .next ((s.request ⟨Kind.destDrop, tag, body⟩ (lengthIs 1 body) (State.ownDestDrop body)).settle s)

/-! ### PHRASE_PUT (R17) -/

/-- PHRASE_PUT at the phrase store (log 32). -/
def State.ownPhrasePut (b : Bytes) (s : State) : State × Answer :=
  let text := b.drop 3
  let key := phraseKey (u16 b 0) (u8 b 2)
  if s.busy && u16 b 0 ≤ 255 then refuse s .storeBusy
  else if u16 b 0 = 0 || 4095 < u16 b 0 || 7 < u8 b 2 || Config.maxTextBytes < text.length then refuse s .badValue
  else if text = [] then ({ s with phrases := s.phrases.del key }, some (.done, .empty))
  else if (s.phrases.look key).isNone && Config.maxTexts ≤ s.phrases.length then refuse s .tableFull
  else ({ s with phrases := s.phrases.put key text }, some (.done, .empty))

/-- PHRASE_PUT (R17). -/
def execPhrasePut (tag : Byte) (body : Bytes) (s : State) : Host.Outcome State Fault Refusal :=
  .next ((s.request ⟨Kind.phrasePut, tag, body⟩ (lengthPhrase body) (State.ownPhrasePut body)).settle s)

end Sys2Proof.Machine
end

