-- ==== Sys2Proof/Machine/Cabin.lean ====
section
/-! DEFINITION. The content commands: CABIN_SET, NOTICE_SET, REDRAW and the rotation step (sections 4 and 6; R125). -/

namespace Sys2Proof.Machine

/-! ### Writing a cabin part (R59) -/

/-- The marks that a written cabin part makes (R59): occupant line and DND flag mark PLATE, the language every
component in use, ALERT with class ALERT. -/
def Panel.cabinMarks (p : Panel) (old new : Cabin) : List Mark :=
  (if old.occupant = new.occupant then [] else [(.plate, .content)]) ++
    (if old.dnd = new.dnd then [] else [(.plate, .content)]) ++
    if old.lang = new.lang then []
    else p.content.inUse.members.map fun c => (c, if c = .alert then .alert else .content)

/-- Write the cabin part of a door (R59). -/
def Panel.writeCabin (p : Panel) (new : Cabin) : Panel × List Mark :=
  match p.content.cabin with
  | none => (p, [])
  | some old => ({ p with content := { p.content with cabin := some new } }, p.cabinMarks old new)

/-! ### CABIN_SET (R59) -/

def cabinVacate (b : Bytes) : Bool := flag b 2 0

def cabinLine (b : Bytes) : Bytes := slice b 5 (u8 b 4)

/-- The cabin part a request gives: blank for a vacate, otherwise as sent (R59). -/
def State.cabinOf (s : State) (b : Bytes) : Cabin :=
  if cabinVacate b then .blank s.params.primaryLang
  else
    { occupant := if cabinLine b = [] then none else some (cabinLine b), lang := u8 b 3, dnd := flag b 2 1 }

/-- The checks of R59, in its order. -/
def State.cabinChecks (s : State) (b : Bytes) : List (Bool × Code) :=
  [(255 < u16 b 0, .badValue),
    (!s.isDoor (u16 b 0), .notFound),
    (!cabinVacate b && (24 < u8 b 4 || (cabinLine b).any fun c => !printable c), .badValue),
    (!cabinVacate b && 7 < u8 b 3, .badValue)]

/-- A changed DND flag is reported with source HOST (R59, R60). -/
def State.hostDnd (s : State) (id : Nat) (old new : Bool) : State :=
  if old = new then s else s.guestReport (if new then .dndOn else .dndOff) id .host

/-- The DND flag a door holds. -/
def State.dndOf (s : State) (id : Nat) : Bool :=
  (((s.panels.look id).bind (·.content.cabin)).map (·.dnd)).getD false

/-- CABIN_SET at the content unit. -/
def State.ownCabinSet (b : Bytes) (s : State) : State × Answer :=
  match firstRefusal (s.cabinChecks b) with
  | some c => refuse s c
  | none =>
    let id := u16 b 0
    let new := s.cabinOf b
    let t := (s.passOne id .touched false fun _ p => p.writeCabin new).hostDnd id (s.dndOf id) new.dnd
    (if cabinVacate b then t.dropPanelBookings id else t, some (.done, .empty))

/-- CABIN_SET (R59). -/
def execCabinSet (tag : Byte) (body : Bytes) (s : State) : Host.Outcome State Fault Refusal :=
  .next ((s.request ⟨Kind.cabinSet, tag, body⟩ (lengthCabin body) (State.ownCabinSet body)).settle s)

/-! ### NOTICE_SET (R56) -/

/-- The target of a NOTICE_SET. -/
inductive NoticeTarget where
  | one (panel : Nat) | kind (k : Nat) | deck (d : Nat) | all
  deriving DecidableEq, Repr

def noticeTarget (b : Bytes) : Option NoticeTarget :=
  match u8 b 0 with
  | 0 => some (.one (u16 b 1))
  | 1 => some (.kind (u16 b 1))
  | 2 => some (.deck (u16 b 1))
  | 3 => some .all
  | _ => none

/-- Does a target select a panel (R56)? -/
def NoticeTarget.selects (t : NoticeTarget) (id : Nat) (d : Decl) : Bool :=
  match t with
  | .one i => i = id
  | .kind k => d.kind.code = k
  | .deck n => d.position.any fun q => q.deck = n
  | .all => true

/-- The checks of R56 on its target. -/
def State.noticeTargetChecks (s : State) : NoticeTarget → List (Bool × Code)
  | .one i =>
    [(255 < i, .badValue),
      ((s.panels.look i).isNone, .notFound),
      ((s.panels.look i).any fun p => !p.decl.fitted.notice, .fitRule)]
  | .kind k => [((panelKindOf k).isNone, .badValue)]
  | .deck d => [(!deckOk d, .badValue)]
  | .all => []

/-- The checks of R56 after the selector, in its order. -/
def State.noticeChecks (s : State) (b : Bytes) (t : NoticeTarget) : List (Bool × Code) :=
  s.noticeTargetChecks t ++
    ([(4095 < u16 b 3, .badValue), ((opt32 b 5).any (Config.maxShipMinute < ·), .badValue)] : List (Bool × Code))

/-- The notice a request writes (R56): none for phrase 0, and none for a notice already expired. -/
def State.noticeOf (s : State) (b : Bytes) : Option Notice :=
  let n : Notice := { phrase := u16 b 3, expiry := opt32 b 5 }
  if u16 b 3 = 0 || n.expired s.clock.m then none else some n

/-- Is the notice field of a panel written (R56)? -/
def NoticeTarget.writes (t : NoticeTarget) (id : Nat) (p : Panel) : Bool :=
  t.selects id p.decl && p.decl.fitted.notice

/-- NOTICE_SET at the content unit. -/
def State.ownNoticeSet (b : Bytes) (s : State) : State × Answer :=
  match noticeTarget b with
  | none => refuse s .badValue
  | some t =>
    match firstRefusal (s.noticeChecks b t) with
    | some c => refuse s c
    | none =>
      (s.pass .touched false fun id p =>
          if t.writes id p then p.setNotice s.muster.level s.clock.set (s.noticeOf b) else (p, []),
        some (.done, .count (s.panels.count t.writes)))

/-- NOTICE_SET (R56). -/
def execNoticeSet (tag : Byte) (body : Bytes) (s : State) : Host.Outcome State Fault Refusal :=
  .next ((s.request ⟨Kind.noticeSet, tag, body⟩ (lengthIs 9 body) (State.ownNoticeSet body)).settle s)

/-! ### REDRAW (R125) -/

/-- REDRAW at the line units and the content unit: ONE_PANEL is 0, ALL is 1. -/
def State.ownRedraw (b : Bytes) (s : State) : State × Answer :=
  match u8 b 0 with
  | 0 =>
    if 255 < u16 b 1 then refuse s .badValue
    else if (s.panels.look (u16 b 1)).isNone then refuse s .notFound
    else (s.passOne (u16 b 1) .always (flag b 3 0) (markVisible .content), some (.done, .count 1))
  | 1 => (s.pass .always (flag b 3 0) (markVisible .content), some (.done, .count s.panels.length))
  | _ => refuse s .badValue

/-- REDRAW (R125). -/
def execRedraw (tag : Byte) (body : Bytes) (s : State) : Host.Outcome State Fault Refusal :=
  .next ((s.request ⟨Kind.redraw, tag, body⟩ (lengthIs 4 body) (State.ownRedraw body)).settle s)

/-! ### ROTATION_STEP (R62) -/

/-- The index after a step. -/
def nextIndex (n i : Nat) : Nat := if i + 1 < n then i + 1 else 0

/-- The step at the panel's record (R62). -/
def State.rotate (s : State) (r : Rotation) (due : Nat) (_id : Nat) (p : Panel) : Panel × List Mark :=
  let i := nextIndex p.decl.langs.length r.index
  let q := { p with content := { p.content with
    rotation := some { index := i, due := some (due + 1000 * s.params.dwell) } } }
  (q, if p.decl.langs.getD r.index 0 = p.decl.langs.getD i 0 then [] else q.visible.marks .rotation)

/-- The rotation of a panel with its due time, when a step is due at all (R62). -/
def State.rotationStep (s : State) (id : Nat) : Option (Rotation × Nat) :=
  if s.muster.level.alarmed then none
  else ((s.panels.look id).bind (·.content.rotation)).bind fun r => r.due.map fun d => (r, d)

/-- ROTATION_STEP (R62). -/
def execRotationStep (panel : Nat) (s : State) : Host.Outcome State Fault Refusal :=
  match s.rotationStep panel with
  | none => .next s
  | some (r, d) =>
    match s.reach d with
    | none => .next s
    | some t => .next ((t.passOne panel .touched false (t.rotate r d)).settle s)

end Sys2Proof.Machine
end

