-- ==== Sys2Proof/Machine/Alarm.lean ====
section
/-! DEFINITION. The muster commands: the alarm inputs, the raise and the all-clear by the host, the zone mode, the
coverage deadline and the general alert (section 9). -/

namespace Sys2Proof.Machine

/-! ### The alarm inputs (R134, R135) -/

def Muster.input (m : Muster) : AlarmInput → AlarmIn
  | .drill => m.drill
  | .general => m.general

def Muster.setInput (m : Muster) (i : AlarmInput) (a : AlarmIn) : Muster :=
  match i with
  | .drill => { m with drill := a }
  | .general => { m with general := a }

def State.setInput (s : State) (i : AlarmInput) (a : AlarmIn) : State :=
  { s with muster := s.muster.setInput i a }

/-- A raw level at an input (R134): the debounce is none while it equals the reading, and starts when it comes to
differ. -/
def AlarmIn.raise (a : AlarmIn) (raw : Bool) (u : Nat) : AlarmIn :=
  { a with raw := raw, debounce := if raw = a.reading then none else some (a.debounce.getD u) }

/-- ALARM_INPUT_CHANGE (R134). -/
def execAlarmInputChange (input : AlarmInput) (asserted : Bool) (s : State) : Host.Outcome State Fault Refusal :=
  .next (s.setInput input ((s.muster.input input).raise asserted s.clock.u))

/-- The level an input's assertion raises to (R135). -/
def inputLevel : AlarmInput → AlertLevel
  | .drill => .drill
  | .general => .muster

/-- The reading takes the raw level; an assertion sets the latch (R134, R135). -/
def AlarmIn.taken (a : AlarmIn) : AlarmIn :=
  { a with reading := a.raw, debounce := none, latch := a.latch || a.raw }

/-- A taken change of an input's reading (R135): the INPUT report, then the raise of an assertion. -/
def State.takeInput (s : State) (i : AlarmInput) : State :=
  let a := (s.muster.input i).taken
  let t := s.setInput i a
  let t := t.report (.musterInput t.seconds i a.reading t.muster.drill.latch t.muster.general.latch)
  if a.reading then t.raiseLevel (inputLevel i) (inputCause i) else t

/-- ALARM_DEBOUNCE_EXPIRY (R134, R135). -/
def execAlarmDebounceExpiry (input : AlarmInput) (s : State) : Host.Outcome State Fault Refusal :=
  match (s.muster.input input).debounce with
  | none => .next s
  | some d =>
    match s.reach (d + Config.debounce) with
    | none => .next s
    | some t => .next ((t.takeInput input).settle s)

/-! ### MODE_SET (R142) -/

/-- MODE_SET at the muster unit. -/
def State.ownModeSet (b : Bytes) (s : State) : State × Answer :=
  match modeOf (u8 b 0) with
  | none => refuse s .badValue
  | some m =>
    if s.muster.level.alarmed then
      ({ s with muster := { s.muster with saved := m } }, some (.deferred, .empty))
    else
      (({ s with muster := { s.muster with mode := m } } : State).sweepUpdate s.muster, some (.done, .empty))

/-- MODE_SET (R142). -/
def execModeSet (tag : Byte) (body : Bytes) (s : State) : Host.Outcome State Fault Refusal :=
  .next ((s.request ⟨Kind.modeSet, tag, body⟩ (lengthIs 1 body) (State.ownModeSet body)).settle s)

/-! ### MUSTER_RAISE and ALL_CLEAR (R138 to R140) -/

/-- MUSTER_RAISE at the muster unit. -/
def State.ownMusterRaise (b : Bytes) (s : State) : State × Answer :=
  match alertLevelOf (u8 b 0) with
  | none => refuse s .badValue
  | some l =>
    if l.level.rank < s.muster.level.rank then refuse s .levelLower
    else (s.raiseLevel l .hostRaise, some (.done, .empty))

/-- MUSTER_RAISE (R138). -/
def execMusterRaise (tag : Byte) (body : Bytes) (s : State) : Host.Outcome State Fault Refusal :=
  .next ((s.request ⟨Kind.musterRaise, tag, body⟩ (lengthIs 1 body) (State.ownMusterRaise body)).settle s)

/-- ALL_CLEAR at the muster unit (R139). -/
def State.ownAllClear (s : State) : State × Answer :=
  if !s.muster.level.alarmed then refuse s .notInMuster
  else if s.muster.drill.reading || s.muster.general.reading then refuse s .lineHeld
  else (s.allClear, some (.done, .empty))

/-- ALL_CLEAR (R140). -/
def execAllClear (tag : Byte) (body : Bytes) (s : State) : Host.Outcome State Fault Refusal :=
  .next ((s.request ⟨Kind.allClear, tag, body⟩ (lengthIs 0 body) State.ownAllClear).settle s)

/-! ### COVERAGE_DEADLINE (R147) -/

/-- The COVERAGE_SHORT report of a record at this moment (R147). -/
def State.shortReport (s : State) (c : Coverage) : Report :=
  .coverageShort s.seconds c.level (liveCount s.panels) (coveredCount s.panels c.level) (stateCount s.panels .fault)
    (stateCount s.panels .absent) (uncovered s.panels c.level).length
    ((uncovered s.panels c.level).take Config.shortListMax)

/-- COVERAGE_DEADLINE (R147): once for each record, and nothing when it is complete. -/
def execCoverageDeadline (s : State) : Host.Outcome State Fault Refusal :=
  match s.muster.coverage with
  | none => .next s
  | some c =>
    if c.short then .next s
    else
      match s.reach c.deadline with
      | none => .next s
      | some t =>
        .next (if c.complete then t else (t.setCoverage (some { c with short := true })).report (t.shortReport c))

/-! ### GENERAL_ALERT_DUE and GENERAL_ALERT_SENT (R102, R105, R148) -/

/-- GENERAL_ALERT_DUE (R148): a broadcast of the level of the moment is made due on the line. -/
def execGeneralAlertDue (line : Fin 4) (s : State) : Host.Outcome State Fault Refusal :=
  match s.muster.alertDue.get line with
  | none => .next s
  | some d =>
    match s.reach d with
    | none => .next s
    | some t =>
      .next (((({ t with muster := { t.muster with
          alertDue := t.muster.alertDue.set line (some (d + Config.alertPeriod)) } } : State).updLine line fun l =>
        { l with alert := t.muster.level.banner })).settle s)

/-- The exchange in flight is a general alert. -/
def LineUnit.broadcasting (l : LineUnit) : Bool :=
  match l.exch with
  | some ⟨.generalAlert _, _, _, _⟩ => true
  | _ => false

/-- GENERAL_ALERT_SENT (R102, R105): the exchange ends with its frame, and the arbiter picks. -/
def execGeneralAlertSent (line : Fin 4) (s : State) : Host.Outcome State Fault Refusal :=
  .next (if (s.line line).broadcasting then (s.updLine line LineUnit.endExchange).settle s else s)

end Sys2Proof.Machine
end

