-- ==== Sys2Proof/Machine/Bus.lean ====
section
/-! DEFINITION. The commands of the panel lines: the panels' answers, the timers of a line, the sweep and LINE_RESET
(sections 7 and 12.3). -/

namespace Sys2Proof.Machine

/-! ### Answers (R102) -/

/-- The frame of an exchange takes this kind of answer; what it carried is handed on. -/
def LineFrame.draw : LineFrame → Option Unit
  | .select false => some ()
  | _ => none

def LineFrame.probe : LineFrame → Option Unit
  | .select true => some ()
  | _ => none

def LineFrame.paged : LineFrame → Option Unit
  | .page _ _ => some ()
  | _ => none

def LineFrame.committed : LineFrame → Option Unit
  | .commit => some ()
  | _ => none

def LineFrame.aborted : LineFrame → Option Unit
  | .abort => some ()
  | _ => none

/-- The brightness of a POLL. -/
def LineFrame.polled : LineFrame → Option Nat
  | .poll b => some b
  | _ => none

/-- What a frame from a panel means to a line (R102): the exchange in flight, what its frame carried, and the answer,
when the exchange calls for this kind of answer, its answer is not missing already, and the frame is a good one of it
from the addressed drop. -/
def LineUnit.awaits {α β : Type} (l : LineUnit) (sent : LineFrame → Option β) (type : Nat)
    (parse : Bytes → Option α) (frame : Bytes) : Option (Exchange × β × α) :=
  (l.exch.filter fun x => !x.missed).bind fun x =>
    (sent x.frame).bind fun b => ((answerFrom (dropOf x.panel) type frame).bind parse).map fun a => (x, b, a)

/-- Is a frame from a panel a good answer of an exchange with the drop (R102, R171)? A broadcast calls for none, and
nothing makes its answer missing. -/
def LineFrame.goodAnswer (drop : Nat) (frame : Bytes) : LineFrame → Bool
  | .select _ => ((answerFrom drop 0x81 frame).bind selectAnswerOf).isSome
  | .page _ _ => ((answerFrom drop 0x82 frame).bind pageAnswerOf).isSome
  | .commit => ((answerFrom drop 0x83 frame).bind ackOf).isSome
  | .poll _ => ((answerFrom drop 0x84 frame).bind pollAnswerOf).isSome
  | .abort => ((answerFrom drop 0x85 frame).bind ackOf).isSome
  | .generalAlert _ => true

/-- An answer that is not taken (R102): one that is not good makes the answer of the exchange in flight missing, and
the exchange then ends when its timeout runs out, and not before (log 14). -/
def LineUnit.spoil (l : LineUnit) (frame : Bytes) : LineUnit :=
  { l with exch := l.exch.map fun x =>
    if x.frame.goodAnswer (dropOf x.panel) frame then x else { x with missed := true } }

/-- A line hears an answer that it does not take. -/
def State.spoil (s : State) (i : Fin 4) (frame : Bytes) : State := s.updLine i (·.spoil frame)

/-- A SELECT answer in a job (R112, R126). -/
def State.onSelect (s : State) (i : Fin 4) (x : Exchange) (a : SelectAnswer) : State :=
  if x.orphan then s.updLine i (·.orphanEnds x) else s.selectTaken i x.panel a

/-- SELECT_ANSWER (R112). -/
def execSelectAnswer (line : Fin 4) (frame : Bytes) (s : State) : Host.Outcome State Fault Refusal :=
  match (s.line line).awaits LineFrame.draw 0x81 selectAnswerOf frame with
  | none => .next (s.spoil line frame)
  | some (x, _, a) => .next ((s.onSelect line x a).settle s)

/-- A PAGE answer (R113, R126). -/
def State.onPage (s : State) (i : Fin 4) (x : Exchange) (a : PageAnswer) : State :=
  if x.orphan then s.updLine i (·.orphanEnds x) else s.pageTaken i x.panel a

/-- PAGE_ANSWER (R113). -/
def execPageAnswer (line : Fin 4) (frame : Bytes) (s : State) : Host.Outcome State Fault Refusal :=
  match (s.line line).awaits LineFrame.paged 0x82 pageAnswerOf frame with
  | none => .next (s.spoil line frame)
  | some (x, _, a) => .next ((s.onPage line x a).settle s)

/-- A COMMIT acknowledgement (R114, R126). -/
def State.onCommit (s : State) (i : Fin 4) (x : Exchange) : State :=
  if x.orphan then s.updLine i (·.orphanCommit s.clock.u) else s.commitTaken i x.panel

/-- COMMIT_ACK (R114). -/
def execCommitAck (line : Fin 4) (frame : Bytes) (s : State) : Host.Outcome State Fault Refusal :=
  match (s.line line).awaits LineFrame.committed 0x83 ackOf frame with
  | none => .next (s.spoil line frame)
  | some (x, _, _) => .next ((s.onCommit line x).settle s)

/-- An ABORT acknowledgement (R121, R126). -/
def State.onAbort (s : State) (i : Fin 4) (x : Exchange) : State :=
  if x.orphan then s.updLine i (·.orphanEnds x)
  else
    let t := s.updLine i LineUnit.endExchange
    match t.panels.look x.panel with
    | some p => t.abortEnds i x.panel p false
    | none => t

/-- ABORT_ACK (R121). -/
def execAbortAck (line : Fin 4) (frame : Bytes) (s : State) : Host.Outcome State Fault Refusal :=
  match (s.line line).awaits LineFrame.aborted 0x85 ackOf frame with
  | none => .next (s.spoil line frame)
  | some (x, _, _) => .next ((s.onAbort line x).settle s)

/-- A POLL answer (R115, R119, R126). -/
def State.onPoll (s : State) (i : Fin 4) (x : Exchange) (b : Nat) (a : PollAnswer) : State :=
  if x.orphan then s.updLine i (·.orphanEnds x) else s.pollTaken i x.panel b a

/-- POLL_ANSWER (R115). -/
def execPollAnswer (line : Fin 4) (frame : Bytes) (s : State) : Host.Outcome State Fault Refusal :=
  match (s.line line).awaits LineFrame.polled 0x84 pollAnswerOf frame with
  | none => .next (s.spoil line frame)
  | some (x, b, a) => .next ((s.onPoll line x b a).settle s)

/-- A probe answer (R120, R126). -/
def State.onProbe (s : State) (i : Fin 4) (x : Exchange) (a : SelectAnswer) : State :=
  if x.orphan then s.updLine i (·.orphanEnds x) else s.probeTaken i x.panel a

/-- PROBE_ANSWER (R120). -/
def execProbeAnswer (line : Fin 4) (frame : Bytes) (s : State) : Host.Outcome State Fault Refusal :=
  match (s.line line).awaits LineFrame.probe 0x81 selectAnswerOf frame with
  | none => .next (s.spoil line frame)
  | some (x, _, a) => .next ((s.onProbe line x a).settle s)

/-- ANSWER_TIMEOUT (R102; log 25). -/
def execAnswerTimeout (line : Fin 4) (s : State) : Host.Outcome State Fault Refusal :=
  .next ((s.timeout line).settle s)

/-- STRAY_PANEL_FRAME (R102): the frame is discarded. -/
def execStrayPanelFrame (_line : Fin 4) (_frame : Bytes) (s : State) : Host.Outcome State Fault Refusal := .next s

/-! ### Timers -/

/-- POLL_DUE (R110, R111): at the panel's due time the arbiter is given work. -/
def execPollDue (panel : Nat) (s : State) : Host.Outcome State Fault Refusal :=
  match (s.panels.look panel).bind (·.line.nextPoll) with
  | none => .next s
  | some d =>
    match s.reach d with
    | none => .next s
    | some t => .next (t.arbitrate (lineOf panel))

/-- The update deadline of a panel that is still UPDATING (R116). -/
def Panel.updateDeadline (p : Panel) : Option Nat := if p.line.state = .updating then p.line.deadline else none

/-- An update timeout (R116, R118). -/
def State.updateFails (s : State) (id : Nat) : State :=
  match s.panels.look id with
  | some p => s.jobFails (lineOf id) id p
  | none => s

/-- UPDATE_TIMEOUT (R116): the failed panel, LIVE again, and the freed slot give the arbiter work. -/
def execUpdateTimeout (panel : Nat) (s : State) : Host.Outcome State Fault Refusal :=
  match (s.panels.look panel).bind Panel.updateDeadline with
  | none => .next s
  | some d =>
    match s.reach d with
    | none => .next s
    | some t => .next ((t.updateFails panel).arbitrate (lineOf panel))

/-- A held slot removed (R117). -/
def LineUnit.release (l : LineUnit) (rest : List Nat) : LineUnit := { l with slots := l.slots - 1, held := rest }

/-- HELD_SLOT_RELEASE (R117): the slot with the earliest release time. -/
def execHeldSlotRelease (line : Fin 4) (s : State) : Host.Outcome State Fault Refusal :=
  match earliestHeld (s.line line).held with
  | none => .next s
  | some (d, rest) =>
    match s.reach d with
    | none => .next s
    | some t => .next ((t.updLine line (·.release rest)).settle s)

/-- The panel id a sweep step examines (R123). -/
def sweepPanel (i : Fin 4) (o : SweepOrder) (k : Nat) : Nat := 64 * i.val + sweepDrop o k

/-- The sweep's request for the panel at a drop (R123). -/
def State.sweepAt (s : State) (id : Nat) : State :=
  match s.panels.look id with
  | some p => if p.stale s.clock.u then s.forcedDraw id .upkeep else s
  | none => s

/-- The pointer and the next due time after a step (R122, R123). -/
def LineUnit.sweepNext (l : LineUnit) (due : Nat) : LineUnit :=
  { l with sweepK := (l.sweepK + 1) % 64, sweepDue := some due }

/-- SWEEP_STEP (R122, R123). -/
def execSweepStep (line : Fin 4) (s : State) : Host.Outcome State Fault Refusal :=
  match (s.line line).sweepDue with
  | none => .next s
  | some d =>
    match s.reach d with
    | none => .next s
    | some t =>
      .next (((t.sweepAt (sweepPanel line t.params.sweepOrder (t.line line).sweepK)).updLine line
        (·.sweepNext (d + 1000 * t.params.sweepInterval))).settle s)

/-! ### LINE_RESET (R124) -/

/-- LINE_RESET at the line unit (log 23). -/
def State.ownLineReset (b : Bytes) (s : State) : State × Answer :=
  if h : u8 b 0 < 4 then
    (s.resetLine ⟨u8 b 0, h⟩, some (.done, .count (s.panelsOf ⟨u8 b 0, h⟩).length))
  else refuse s .badValue

/-- LINE_RESET (R124). -/
def execLineReset (tag : Byte) (body : Bytes) (s : State) : Host.Outcome State Fault Refusal :=
  .next (s.request ⟨Kind.lineReset, tag, body⟩ (lengthIs 1 body) (State.ownLineReset body))

end Sys2Proof.Machine
end

