-- ==== Sys2Proof/Machine/Port.lean ====
section
/-! DEFINITION. The control link's own commands: the receiver, the receive queue, the transmitter, and a request of an
unknown kind (section 10). -/

namespace Sys2Proof.Machine

/-- A discard counter after one more discard (R153, R154). -/
def countUp (n : Nat) : Nat := min (n + 1) Config.counterMax

/-- A good frame offered to the receive queue (R154). -/
def Link.offer (l : Link) (f : Frame) : Link :=
  if l.queue.length < Config.rxQueueMax then
    { l with
      queue := l.queue ++ [f]
      cts := if Config.ctsThreshold ≤ l.queue.length + 1 then false else l.cts }
  else { l with overflowCount := countUp l.overflowCount }

/-- A frame received whole is judged by its CRC-16 (R153; log 13): `data` is its kind, tag and body, `check` the two bytes
them. -/
def Link.judge (l : Link) (lo hi : Byte) (data check : Bytes) : Link :=
  if check = crc16Bytes (lo :: hi :: data) then
    l.offer ⟨data.getD 0 0, data.getD 1 0, data.drop 2⟩
  else { l with crcCount := countUp l.crcCount }

/-- The receiver in HUNT takes a byte (R152). -/
def Rx.huntByte (b : Byte) : Rx := if b = 0xA5#8 then .length [] else .hunt

/-- The receiver in HUNT takes the two bytes of a rejected length (R152). -/
def Rx.rehunt (lo hi : Byte) : Rx := if lo = 0xA5#8 then .length [hi] else Rx.huntByte hi

/-- The number of bytes a length announces. -/
def frameLength (lo hi : Byte) : Nat := lo.toNat + 256 * hi.toNat

/-- The receiver takes one byte (R152, R153). -/
def Link.byte (l : Link) (b : Byte) : Link :=
  match l.rx with
  | .hunt => { l with rx := Rx.huntByte b }
  | .length [] => { l with rx := .length [b] }
  | .length (lo :: _) =>
    if Config.minFrameLength ≤ frameLength lo b && frameLength lo b ≤ Config.maxFrameLength then
      { l with rx := .frame lo b [] }
    else { l with rx := Rx.rehunt lo b }
  | .frame lo hi got =>
    let all := got ++ [b]
    let n := frameLength lo hi
    if all.length < n + 2 then { l with rx := .frame lo hi all }
    else ({ l with rx := .hunt } : Link).judge lo hi (all.take n) (all.drop n)

/-- The receiver takes a run of bytes. -/
def Link.bytes (l : Link) : Bytes → Link
  | [] => l
  | b :: bs => (l.byte b).bytes bs

/-- LINK_BYTE_RECEIVED (R152). -/
def execLinkByteReceived (byte : Byte) (s : State) : Host.Outcome State Fault Refusal :=
  .next { s with link := s.link.byte byte }

/-- LINK_FRAME_RECEIVED (R153, R154): the bytes of a frame, taken one at a time. -/
def execLinkFrameReceived (bytes : Bytes) (s : State) : Host.Outcome State Fault Refusal :=
  .next { s with link := s.link.bytes bytes }

/-- A gap discards the frame begun (R153). -/
def Link.gap (l : Link) : Link :=
  match l.rx with
  | .hunt => l
  | .length _ => { l with rx := .hunt, gapCount := countUp l.gapCount }
  | .frame _ _ _ => { l with rx := .hunt, gapCount := countUp l.gapCount }

/-- LINK_GAP_TIMEOUT (R153). -/
def execLinkGapTimeout (s : State) : Host.Outcome State Fault Refusal := .next { s with link := s.link.gap }

/-- The frame being sent has been sent (R155, R158): a reply is no longer the waiting reply. -/
def Link.sent (l : Link) : Link :=
  match l.tx with
  | none => l
  | some (.reply _) => ({ l with tx := none, waiting := none } : Link).pump
  | some (.report _ _) => ({ l with tx := none } : Link).pump
  | some (.checkpointReply _) => ({ l with tx := none } : Link).pump

/-- LINK_FRAME_SENT (R158). -/
def execLinkFrameSent (s : State) : Host.Outcome State Fault Refusal := .next { s with link := s.link.sent }

/-- UNKNOWN_KIND (R155, R156): a frame whose kind is not in the catalogue. -/
def execUnknownKind (kind tag : Byte) (body : Bytes) (s : State) : Host.Outcome State Fault Refusal :=
  .next (if catalogue.contains kind then s
    else s.request ⟨kind, tag, body⟩ true fun t => refuse t .unknownKind)

end Sys2Proof.Machine
end

