-- ==== Sys2Proof/Machine/Kit.lean ====
section
/-! DEFINITION. The kit store: CHECKPOINT and its stages, start-up, and RESTART (section 11). -/

namespace Sys2Proof.Machine

/-! ### The kit (R164) -/

/-- Keys of the safety phrases, ids 1..255 in every language. -/
def safetyKey (k : Nat) : Bool := 8 ≤ k && k < 2048

/-- The kit as it stands (R164, R165). -/
def State.kit (s : State) : Kit :=
  { params := s.params
    panels := s.panels.mapVals fun _ p => ⟨p.decl, p.guide, p.pins⟩
    nodes := s.nodes.mapVals fun _ n => n.spec
    dests := s.dests
    phrases := s.phrases.filter fun e => safetyKey e.1 }

/-! ### CHECKPOINT (R165) -/

/-- The link unit keeps the tag of an accepted checkpoint (R157). -/
def State.keepTag (s : State) : State :=
  { s with link := { s.link with checkpointTag := s.link.running.map (·.tag) } }

/-- The image while it is being erased (R166): not valid from then on; one that is erased already stays so (log 8). -/
def Image.erasing : Image → Image
  | .erased => .erased
  | .bad => .bad
  | .written _ _ => .bad

/-- A snapshot is taken and the stage becomes ERASE (R165, R166). -/
def State.beginCheckpoint (s : State) : State :=
  { s with store := { s.store with image := s.store.image.erasing, checkpoint := some ⟨s.kit, .erase⟩ } }

/-- CHECKPOINT at the kit store. -/
def State.ownCheckpoint (s : State) : State × Answer :=
  if s.busy then refuse s .storeBusy else (s.beginCheckpoint.keepTag, none)

/-- CHECKPOINT (R165). -/
def execCheckpoint (tag : Byte) (body : Bytes) (s : State) : Host.Outcome State Fault Refusal :=
  .next (s.request ⟨Kind.checkpoint, tag, body⟩ (lengthIs 0 body) State.ownCheckpoint)

/-! ### The stages (R166) -/

/-- A checkpoint completes with an image, the FAULT output and the late reply (R157, R166). -/
def State.endCheckpoint (s : State) (image : Image) (good : Bool) : State :=
  { s with
    store := { s.store with image := image, checkpoint := none, fault := !good }
    link := s.link.lateReply
      ⟨replyKind Kind.checkpoint, s.link.checkpointTag.getD 0, if good then .done else .storeFail, .empty⟩ }

/-- ERASE_END (R166): the image is erased, and WRITE begins; an erase that did not finish leaves it as it was during
the stage (log 8). -/
def execEraseEnd (finished : Bool) (s : State) : Host.Outcome State Fault Refusal :=
  match s.store.checkpoint with
  | some ⟨kit, .erase⟩ =>
    if finished then .next { s with store := { s.store with image := .erased, checkpoint := some ⟨kit, .write⟩ } }
    else .next (s.endCheckpoint s.store.image.erasing false)
  | some ⟨_, .write⟩ => .next s
  | some ⟨_, .verify⟩ => .next s
  | none => .next s

/-- WRITE_END (R166, R169): the snapshot's bytes and their CRC-32 are in the image (log 7); a write that did not finish
leaves it written in part. -/
def execWriteEnd (finished : Bool) (image : Bytes) (s : State) : Host.Outcome State Fault Refusal :=
  match s.store.checkpoint with
  | some ⟨kit, .write⟩ =>
    if finished then
      .next { s with store := { s.store with image := .written kit (crc32Bytes image), checkpoint := some ⟨kit, .verify⟩ } }
    else .next (s.endCheckpoint .bad false)
  | some ⟨_, .erase⟩ => .next s
  | some ⟨_, .verify⟩ => .next s
  | none => .next s

/-- Does the read-back of an image match its stored CRC-32 (R164, R166)? -/
def Image.matches (i : Image) (readBack : Bytes) : Bool :=
  match i with
  | .erased => false
  | .bad => false
  | .written _ crc => crc32Bytes readBack = crc

/-- CHECKPOINT_COMPLETE (R166). -/
def execCheckpointComplete (readBack : Bytes) (s : State) : Host.Outcome State Fault Refusal :=
  match s.store.checkpoint with
  | some ⟨_, .verify⟩ =>
    if s.store.image.matches readBack then .next (s.endCheckpoint s.store.image true)
    else .next (s.endCheckpoint .bad false)
  | some ⟨_, .erase⟩ => .next s
  | some ⟨_, .write⟩ => .next s
  | none => .next s

/-! ### Start-up (R167) -/

/-- The image that a start-up finds (R166, R167): a start-up within WRITE finds it written in part, or still erased when
nothing reads back (log 8). -/
def Store.imageFound (t : Store) (readBack : Bytes) : Image :=
  match t.checkpoint with
  | some ⟨_, .write⟩ => if readBack = [] then .erased else .bad
  | some ⟨_, .erase⟩ => t.image
  | some ⟨_, .verify⟩ => t.image
  | none => t.image

/-- Every volatile state at its start value, the zone tables empty with the default parameters, and the image as it
stood: step 1 of R167. The commands that wait are the model's own and stay. -/
def State.cold (s : State) (rateHigh drillRaw generalRaw : Bool) (readBack : Bytes) : State :=
  { State.reset with
    muster := .initial drillRaw generalRaw
    link := .initial rateHigh
    store := { image := s.store.imageFound readBack, kitState := .invalid, checkpoint := none, fault := true }
    pending := s.pending }

/-- The zone tables take the stored kit, every node at its default state (R3, R13, R167). -/
def State.loadTables (s : State) (k : Kit) : State :=
  { s with
    params := k.params
    nodes := k.nodes.mapVals fun _ n => ⟨n, n.initial⟩
    dests := k.dests
    phrases := k.phrases
    store := { s.store with kitState := .loaded, fault := false } }

/-- The panels of the kit come into being in ascending order of id (R83, R100, R106, R167). -/
def State.loadPanels (s : State) (k : Kit) : State :=
  { s with panels := k.panels.mapVals fun _ x => s.newPanel x.decl x.guide x.pins }

/-- The KIT report of a loaded kit (R167). -/
def Kit.report (k : Kit) : Report :=
  .kit .loaded k.panels.length k.nodes.length k.dests.length k.phrases.length none

/-- The image checked at start-up (R164, R167): the kit it holds, or why it is not valid. -/
def Image.check (i : Image) (readBack : Bytes) : Kit ⊕ KitFault :=
  match i with
  | .erased => .inr .empty
  | .bad => .inr .check
  | .written kit crc => if crc32Bytes readBack = crc then .inl kit else .inr .check

/-- The image after its check: one that failed it is not valid (log 8). -/
def Image.checked (i : Image) (readBack : Bytes) : Image :=
  match i with
  | .erased => .erased
  | .bad => .bad
  | .written kit crc => if crc32Bytes readBack = crc then .written kit crc else .bad

/-- Step 2 and 3 of R167. -/
def State.boot (s : State) (readBack : Bytes) : State :=
  match s.store.image.check readBack with
  | .inl k => ((s.loadTables k).loadPanels k).report k.report
  | .inr why =>
    ({ s with store := { s.store with image := s.store.image.checked readBack } } : State).report
      (.kit .invalid 0 0 0 0 (some why))

/-- START_UP (R167). -/
def execStartUp (rateHigh drillRaw generalRaw : Bool) (readBack : Bytes) (s : State) :
    Host.Outcome State Fault Refusal :=
  .next ((s.cold rateHigh drillRaw generalRaw readBack).boot readBack)

/-! ### RESTART (R168) -/

/-- The notice of a panel cleared (R57). -/
def State.clearNotice (s : State) (_id : Nat) (p : Panel) : Panel × List Mark :=
  p.setNotice s.muster.level s.clock.set none

/-- The cabin part of a door set blank, with the marks of R59 (R58). -/
def State.blankCabin (s : State) (_id : Nat) (p : Panel) : Panel × List Mark :=
  p.writeCabin (.blank s.params.primaryLang)

/-- The content unit's part of RESTART (R168, steps 2 and 3): one draw decision for every panel, ascending (R101;
log 33). -/
def State.restartContent (s : State) : State :=
  s.pass .always false (andThen (s.agendaPass .other) (andThen s.clearNotice s.blankCabin))

/-- RESTART at the controller. -/
def State.ownRestart (s : State) : State × Answer :=
  let t := ({ s with events := [], bookings := [] } : State).restartContent
  ({ t with link := t.link.clearReports }, some (.done, .empty))

/-- RESTART (R168). -/
def execRestart (tag : Byte) (body : Bytes) (s : State) : Host.Outcome State Fault Refusal :=
  .next ((s.request ⟨Kind.restart, tag, body⟩ (lengthIs 0 body) State.ownRestart).settle s)

end Sys2Proof.Machine
end

