-- ==== Sys2Proof/Machine/Query.lean ====
section
/-! DEFINITION. The queries: STATUS, PANEL_READ, EVENT_READ and ROUTE_PROBE (section 10.6; R81, R82). -/

namespace Sys2Proof.Machine

/-! ### STATUS (R161, R28, R150) -/

/-- A line as STATUS shows it. -/
def State.lineStatus (s : State) (i : Fin 4) : LineStatus :=
  let ps := s.panelsOf i
  let l := s.line i
  { declared := ps.length
    absent := stateCount ps .absent
    live := stateCount ps .live
    serving := stateCount ps .serving
    updating := stateCount ps .updating
    fault := stateCount ps .fault
    queue := l.queue.length
    slots := l.slots
    held := l.held.length
    job := l.job.map (·.panel) }

/-- The coverage record as STATUS shows it (R150, R161): seconds since the start, and to the deadline, 0 once passed.
DESIGN CHOICE (log 43): R150 gives no rounding; both are whole seconds rounded down, so the seconds to the deadline are 0
in the last second before it as well. Unsafe. -/
def Coverage.status (c : Coverage) (u : Nat) : CoverageStatus :=
  { level := c.level, sinceStart := (u - c.start) / 1000, toDeadline := (c.deadline - u) / 1000, live := c.live,
    covered := c.covered, complete := c.complete, short := c.short }

/-- The lines with a general-alert due time. -/
def Muster.alertLines (m : Muster) : Nat :=
  ([m.alertDue.l0, m.alertDue.l1, m.alertDue.l2, m.alertDue.l3].filter Option.isSome).length

/-- The STATUS reply. -/
def State.statusReply (s : State) : StatusReply :=
  { zone := s.params.zone
    kitState := s.store.kitState
    fault := s.store.fault
    checkpoint := s.busy
    r := s.clock.r
    u := s.seconds
    clockSet := s.clock.set
    offset := s.clock.offset
    m := s.clock.m
    change := s.clock.change
    drillReading := s.muster.drill.reading
    drillLatch := s.muster.drill.latch
    generalReading := s.muster.general.reading
    generalLatch := s.muster.general.latch
    level := s.muster.level
    mode := s.muster.mode
    saved := s.muster.saved
    coverage := s.muster.coverage.map (·.status s.clock.u)
    declared := s.panels.length
    alertLines := s.muster.alertLines
    epoch := s.epoch
    events := s.events.length
    bookings := s.bookings.length
    texts := s.phrases.length
    lines := .build s.lineStatus
    reports := s.link.reports.length
    lost := s.link.lost
    gapCount := s.link.gapCount
    crcCount := s.link.crcCount
    overflowCount := s.link.overflowCount }

/-- STATUS at the link unit. -/
def State.ownStatus (s : State) : State × Answer := (s, some (.done, .status s.statusReply))

/-- STATUS (R161). -/
def execStatus (tag : Byte) (body : Bytes) (s : State) : Host.Outcome State Fault Refusal :=
  .next (s.request ⟨Kind.status, tag, body⟩ (lengthIs 0 body) State.ownStatus)

/-! ### PANEL_READ (R162) -/

/-- The IDENT view. -/
def Panel.identView (id : Nat) (p : Panel) : PanelView := .ident p.decl (lineOf id).val (dropOf id) p.guide p.pins

/-- The events a panel has booked, in the order of the event table (R41). -/
def State.bookedBy (s : State) (id : Nat) : List Nat :=
  (s.events.filter fun e => s.bookings.contains ⟨id, e.id⟩).map (·.id)

/-- The rotation as the CONTENT view shows it: index, current language, seconds of the next step due. -/
def Panel.rotationView (p : Panel) : Option (Nat × Option Nat × Option Nat) :=
  p.content.rotation.map fun r => (r.index, p.decl.langs[r.index]?, r.due.map (· / 1000))

/-- The CONTENT view. -/
def State.contentView (s : State) (id : Nat) (p : Panel) : PanelView :=
  .content p.decl.fitted p.content.inUse p.visible p.content.dirty p.content.inFlight p.content.jobClass
    p.content.jobPage p.content.shown p.content.rows p.content.notice p.content.cabin
    (if p.decl.kind = .door then s.bookedBy id else []) p.rotationView

/-- A panel's entry with its place in the queue, counted from 0: R162 does not say from where (log 42). -/
def entryPlace (id : Nat) : List Entry → Nat → Option (DrawClass × Bool × Nat)
  | [], _ => none
  | e :: es, n => if e.panel = id then some (e.cls, e.full, n) else entryPlace id es (n + 1)

/-- The LINK view. Times are whole seconds of U. A DOOR's quiet time is that of a screen, which R128 leaves open
(log 41), and a quiet time is rounded down (log 43). -/
def State.linkView (s : State) (id : Nat) (p : Panel) : PanelView :=
  .link p.line.state p.line.reason p.line.miss (p.line.nextPoll.map (· / 1000)) p.line.partialCount
    (p.line.lastFull.map (· / 1000)) (p.line.commitTime.map (· / 1000)) p.line.lastBusy
    (entryPlace id (s.line (lineOf id)).queue 0) p.line.rest p.line.ambient (p.line.lastPresence.map (· / 1000))
    (p.line.quiet s.clock.u / 1000) p.line.brightness

/-- The slots of a panel in the slot order (5.1). -/
def Panel.slots (p : Panel) : List Slot := p.guideSlots ++ p.agendaSlots ++ [p.alertSlot]

/-- A pin's via node and its current state. -/
def State.pinView (s : State) (x : Pin) : Option Nat × Option NodeState :=
  (x.via, (x.via.bind s.nodes.look).map (·.current))

/-- The ROUTE view. -/
def State.routeView (s : State) (p : Panel) : PanelView :=
  .route s.epoch s.muster.level.alarmed p.slots (p.pins.map s.pinView)

/-- The view a selector names (R162). -/
def State.view (s : State) (id : Nat) (p : Panel) : Nat → Option PanelView
  | 0 => some (p.identView id)
  | 1 => some (s.contentView id p)
  | 2 => some (s.linkView id p)
  | 3 => some (s.routeView p)
  | _ => none

/-- PANEL_READ at its owners. -/
def State.ownPanelRead (b : Bytes) (s : State) : State × Answer :=
  if 255 < u16 b 0 then refuse s .badValue
  else if 3 < u8 b 2 then refuse s .badValue
  else
    match s.panels.look (u16 b 0) with
    | none => refuse s .notFound
    | some p =>
      match s.view (u16 b 0) p (u8 b 2) with
      | none => refuse s .badValue
      | some v => (s, some (.done, .panel (u16 b 0) v))

/-- PANEL_READ (R162). -/
def execPanelRead (tag : Byte) (body : Bytes) (s : State) : Host.Outcome State Fault Refusal :=
  .next (s.request ⟨Kind.panelRead, tag, body⟩ (lengthIs 3 body) (State.ownPanelRead body))

/-! ### EVENT_READ (R163) -/

/-- The event that follows an id in a list. -/
def eventAfter (id : Nat) : List Event → Option Event
  | [] => none
  | e :: es => if e.id = id then es.head? else eventAfter id es

/-- EVENT_READ at the programme unit: EXACT is 0, NEXT is 1. -/
def State.ownEventRead (b : Bytes) (s : State) : State × Answer :=
  let id := u16 b 1
  match u8 b 0 with
  | 0 =>
    match s.event id with
    | none => refuse s .notFound
    | some e => (s, some (.done, .eventRecord (some e)))
  | 1 =>
    if id = 0 then (s, some (.done, .eventRecord s.events.head?))
    else
      match s.event id with
      | none => refuse s .notFound
      | some _ => (s, some (.done, .eventRecord (eventAfter id s.events)))
  | _ => refuse s .badValue

/-- EVENT_READ (R163). -/
def execEventRead (tag : Byte) (body : Bytes) (s : State) : Host.Outcome State Fault Refusal :=
  .next (s.request ⟨Kind.eventRead, tag, body⟩ (lengthIs 3 body) (State.ownEventRead body))

/-! ### ROUTE_PROBE (R81, R82) -/

/-- The first slot of a panel towards a destination; none gives no previous arrow. -/
def Panel.slotTowards (p : Panel) (d : Nat) : Slot := (p.slots.find? fun x => x.dest = some d).getD .empty

/-- The computation of a probe: as a GUIDE row of the panel would have it (R81). -/
def State.probe (s : State) (p : Panel) (d : Nat) : RouteCalc :=
  routeCalc s.routeEnv p.decl.position p.decl.landingNode p.pins d (p.slotTowards d)

/-- ROUTE_PROBE at the route unit. -/
def State.ownRouteProbe (b : Bytes) (s : State) : State × Answer :=
  if 255 < u16 b 0 then refuse s .badValue
  else
    match s.panels.look (u16 b 0) with
    | none => refuse s .notFound
    | some p =>
      if (s.destAt (u8 b 2)).isNone then refuse s .notFound
      else (s, some (.done, .probe s.epoch s.muster.level.alarmed (s.probe p (u8 b 2))))

/-- ROUTE_PROBE (R81). -/
def execRouteProbe (tag : Byte) (body : Bytes) (s : State) : Host.Outcome State Fault Refusal :=
  .next (s.request ⟨Kind.routeProbe, tag, body⟩ (lengthIs 3 body) (State.ownRouteProbe body))

end Sys2Proof.Machine
end

