-- ==== Sys2Proof/Machine/Dispatch.lean ====
section
/-! DEFINITION. The dispatch of commands: one arm per row of spec/opcode_table.json. -/

namespace Sys2Proof.Machine

/-- The effect of a command on everything but the queue. -/
def exec (i : Instr) (s : State) : Host.Outcome State Fault Refusal :=
  match i with
  | .startUp rateHigh drillRaw generalRaw readBack => Sys2Proof.Machine.execStartUp rateHigh drillRaw generalRaw readBack s
  | .linkFrameReceived bytes => Sys2Proof.Machine.execLinkFrameReceived bytes s
  | .linkGapTimeout => Sys2Proof.Machine.execLinkGapTimeout s
  | .linkFrameSent => Sys2Proof.Machine.execLinkFrameSent s
  | .unknownKind kind tag body => Sys2Proof.Machine.execUnknownKind kind tag body s
  | .zoneSet tag body => Sys2Proof.Machine.execZoneSet tag body s
  | .panelDeclare tag body => Sys2Proof.Machine.execPanelDeclare tag body s
  | .panelWithdraw tag body => Sys2Proof.Machine.execPanelWithdraw tag body s
  | .guideSet tag body => Sys2Proof.Machine.execGuideSet tag body s
  | .nodeSet tag body => Sys2Proof.Machine.execNodeSet tag body s
  | .nodeState tag body => Sys2Proof.Machine.execNodeState tag body s
  | .destSet tag body => Sys2Proof.Machine.execDestSet tag body s
  | .destDrop tag body => Sys2Proof.Machine.execDestDrop tag body s
  | .phrasePut tag body => Sys2Proof.Machine.execPhrasePut tag body s
  | .checkpoint tag body => Sys2Proof.Machine.execCheckpoint tag body s
  | .eraseEnd finished => Sys2Proof.Machine.execEraseEnd finished s
  | .writeEnd finished image => Sys2Proof.Machine.execWriteEnd finished image s
  | .checkpointComplete readBack => Sys2Proof.Machine.execCheckpointComplete readBack s
  | .timeSet tag body => Sys2Proof.Machine.execTimeSet tag body s
  | .offsetSet tag body => Sys2Proof.Machine.execOffsetSet tag body s
  | .advance => Sys2Proof.Machine.execAdvance s
  | .eventPost tag body => Sys2Proof.Machine.execEventPost tag body s
  | .eventCancel tag body => Sys2Proof.Machine.execEventCancel tag body s
  | .eventDrop tag body => Sys2Proof.Machine.execEventDrop tag body s
  | .bookingAdd tag body => Sys2Proof.Machine.execBookingAdd tag body s
  | .bookingRemove tag body => Sys2Proof.Machine.execBookingRemove tag body s
  | .cabinSet tag body => Sys2Proof.Machine.execCabinSet tag body s
  | .noticeSet tag body => Sys2Proof.Machine.execNoticeSet tag body s
  | .modeSet tag body => Sys2Proof.Machine.execModeSet tag body s
  | .musterRaise tag body => Sys2Proof.Machine.execMusterRaise tag body s
  | .allClear tag body => Sys2Proof.Machine.execAllClear tag body s
  | .lineReset tag body => Sys2Proof.Machine.execLineReset tag body s
  | .redraw tag body => Sys2Proof.Machine.execRedraw tag body s
  | .restart tag body => Sys2Proof.Machine.execRestart tag body s
  | .status tag body => Sys2Proof.Machine.execStatus tag body s
  | .panelRead tag body => Sys2Proof.Machine.execPanelRead tag body s
  | .eventRead tag body => Sys2Proof.Machine.execEventRead tag body s
  | .routeProbe tag body => Sys2Proof.Machine.execRouteProbe tag body s
  | .rotationStep panel => Sys2Proof.Machine.execRotationStep panel s
  | .alarmInputChange input asserted => Sys2Proof.Machine.execAlarmInputChange input asserted s
  | .alarmDebounceExpiry input => Sys2Proof.Machine.execAlarmDebounceExpiry input s
  | .coverageDeadline => Sys2Proof.Machine.execCoverageDeadline s
  | .generalAlertDue line => Sys2Proof.Machine.execGeneralAlertDue line s
  | .generalAlertSent line => Sys2Proof.Machine.execGeneralAlertSent line s
  | .pollDue panel => Sys2Proof.Machine.execPollDue panel s
  | .selectAnswer line frame => Sys2Proof.Machine.execSelectAnswer line frame s
  | .pageAnswer line frame => Sys2Proof.Machine.execPageAnswer line frame s
  | .commitAck line frame => Sys2Proof.Machine.execCommitAck line frame s
  | .abortAck line frame => Sys2Proof.Machine.execAbortAck line frame s
  | .pollAnswer line frame => Sys2Proof.Machine.execPollAnswer line frame s
  | .probeAnswer line frame => Sys2Proof.Machine.execProbeAnswer line frame s
  | .answerTimeout line => Sys2Proof.Machine.execAnswerTimeout line s
  | .strayPanelFrame line frame => Sys2Proof.Machine.execStrayPanelFrame line frame s
  | .updateTimeout panel => Sys2Proof.Machine.execUpdateTimeout panel s
  | .heldSlotRelease line => Sys2Proof.Machine.execHeldSlotRelease line s
  | .sweepStep line => Sys2Proof.Machine.execSweepStep line s
  | .linkByteReceived byte => Sys2Proof.Machine.execLinkByteReceived byte s

end Sys2Proof.Machine
end

