-- ==== Sys2Proof/Machine/Step.lean ====
section
/-! DEFINITION. One step: the command at the front of the queue, or, on an empty queue, one millisecond of run time. -/

namespace Sys2Proof.Machine

/-- The state without its first waiting command. -/
def State.withPending (s : State) (cs : List Instr) : State := { s with pending := cs }

/-- Run time on an empty queue (R19): one millisecond passes, which is the advance when it completes a second. At its
last value run time holds. DESIGN CHOICE (log 3). -/
def State.tick (s : State) : Host.Outcome State Fault Refusal :=
  if 1000 * Config.maxSeconds ≤ s.clock.u then .next s
  else if (s.clock.u + 1) % 1000 = 0 then exec .advance s
  else .next { s with clock := { s.clock with u := s.clock.u + 1 } }

/-- Take the command at the front of the queue and run it; with no command, time passes. -/
def step (s : State) : Host.Outcome State Fault Refusal :=
  match s.pending with
  | c :: rest => exec c (s.withPending rest)
  | [] => s.tick

/-- The state with the command that a word spells at the front of its queue; unchanged where the word spells none. -/
def State.withFetchWord (s : State) (nbits w : Nat) : State :=
  match decodeTableWord nbits w with
  | some c => s.withPending (c :: s.pending)
  | none => s

end Sys2Proof.Machine
end

