-- ==== Sys2Proof/Machine/Wire.lean ====
section
/-! DEFINITION. The bytes of the frames the controller sends: replies and reports on the control link (12.2), and the
frames of the panel lines (12.3). What 12.2 leaves open is a free value of Config (log 39). -/

namespace Sys2Proof.Machine

/-! ### Encodings (12.2) -/

/-- One byte. -/
def byte1 (n : Nat) : Bytes := [BitVec.ofNat 8 n]

/-- Two bytes, little-endian. -/
def byte2 (n : Nat) : Bytes := [BitVec.ofNat 8 (n % 256), BitVec.ofNat 8 (n / 256)]

/-- Four bytes, little-endian. -/
def byte4 (n : Nat) : Bytes := byte2 (n % 65536) ++ byte2 (n / 65536)

/-- Two bytes, two's complement. -/
def signed2 (i : Int) : Bytes := byte2 (i % 65536).toNat

/-- A figure: little-endian as every field of chapter 12, in a width that 12.2 does not state (log 39). -/
def figureBytes (f : Config.Figure) (n : Nat) : Bytes :=
  (List.range (Config.width f)).map fun k => BitVec.ofNat 8 (n / 256 ^ k)

/-- Figures one after another. -/
def figures (fs : List (Config.Figure × Nat)) : Bytes := fs.flatMap fun x => figureBytes x.1 x.2

/-- An optional field of a given width: absent, all its bytes are 0xFF. -/
def orAbsent {α : Type} (width : Nat) (f : α → Bytes) : Option α → Bytes
  | some v => f v
  | none => List.replicate width 0xFF#8

/-- Flags in one byte, bit 0 the first. -/
def flagBits : List Bool → Nat
  | [] => 0
  | b :: bs => (if b then 1 else 0) + 2 * flagBits bs

def flagsByte (fs : List Bool) : Bytes := byte1 (flagBits fs)

/-- A text: its length and its bytes. -/
def textBytes (t : Bytes) : Bytes := BitVec.ofNat 8 t.length :: t

/-- A set of components: bit n for component n, bits 5..7 clear (12). -/
def CompSet.bytes (s : CompSet) : Bytes := flagsByte [s.plate, s.notice, s.agenda, s.guide, s.alert]

/-! ### Named values (12.2): numbered from 0 in the order of the owning rule -/

def Comp.number : Comp → Nat
  | .plate => 0
  | .notice => 1
  | .agenda => 2
  | .guide => 3
  | .alert => 4

/-- R51. -/
def RowMark.number : RowMark → Nat
  | .cancelled => 0
  | .now => 1
  | .soon => 2
  | .next => 3

/-- R80: the arrows 0..7, HERE, NO_ROUTE. -/
def ArrowResult.number : ArrowResult → Nat
  | .arrow n => n
  | .here => 8
  | .noRoute => 9

/-- 6.3. -/
def DrawClass.number : DrawClass → Nat
  | .alert => 0
  | .route => 1
  | .content => 2
  | .rotation => 3
  | .upkeep => 4

/-- R64, 1.6. -/
def NodeState.number : NodeState → Nat
  | .opened => 0
  | .closed => 1

/-- 3.1. -/
def EventState.number : EventState → Nat
  | .listed => 0
  | .soon => 1
  | .on => 2
  | .ended => 3

/-- R34. -/
def NoticeKind.number : NoticeKind → Nat
  | .minute => 0
  | .offset => 1
  | .set => 2

/-- R27. -/
def ClockCause.number : ClockCause → Nat
  | .offsetSet => 0
  | .advance => 1
  | .timeSet => 2

/-- 9.2. -/
def Level.number : Level → Nat
  | .normal => 0
  | .drill => 1
  | .muster => 2
  | .restoring => 3

/-- GENERAL_ALERT, the page header's banner, and the level of a coverage record: 1 DRILL, 2 MUSTER (12.3, 9.2). -/
def AlertLevel.number : AlertLevel → Nat
  | .drill => 1
  | .muster => 2

/-- R142. -/
def Mode.number : Mode → Nat
  | .day => 0
  | .night => 1

/-- R149. -/
def AlarmInput.number : Sys2Proof.AlarmInput → Nat
  | .drill => 0
  | .general => 1

/-- R134: ASSERTED, DEASSERTED. -/
def readingNumber (asserted : Bool) : Nat := if asserted then 0 else 1

/-- R149. -/
def LevelCause.number : LevelCause → Nat
  | .drillInput => 0
  | .generalInput => 1
  | .hostRaise => 2
  | .allClear => 3

/-- R106. -/
def LineState.number : LineState → Nat
  | .absent => 0
  | .live => 1
  | .serving => 2
  | .updating => 3
  | .fault => 4

/-- MISSES 0 and KIND_MISMATCH 1, as R108 lists them; no reason is an absent field, 0xFF (log 39). -/
def FaultReason.number : FaultReason → Nat
  | .misses => 0
  | .kindMismatch => 1

/-- 8.2. -/
def Rest.number : Rest → Nat
  | .active => 0
  | .rest1 => 1
  | .rest2 => 2
  | .rest3 => 3

/-- R60. -/
def GuestSource.number : GuestSource → Nat
  | .host => 0
  | .button => 1

/-- Section 11. -/
def KitState.number : KitState → Nat
  | .loaded => 0
  | .invalid => 1

/-- R167. -/
def KitFault.number : KitFault → Nat
  | .empty => 0
  | .check => 1

/-- R26. -/
def OffsetOutcome.number : OffsetOutcome → Nat
  | .applied => 0
  | .pending => 1

/-- R82. -/
def RouteStage.number : RouteStage → Nat
  | .noPosition => 0
  | .noPortal => 1
  | .noVertical => 2
  | .ownNode => 3
  | .here => 4
  | .arrow => 5

/-- The result codes (10.4). -/
def Code.number : Code → Nat
  | .done => 0
  | .adjusted => 1
  | .deferred => 2
  | .unknownKind => 16
  | .badLength => 17
  | .badValue => 18
  | .notFound => 19
  | .tableFull => 20
  | .fitRule => 21
  | .eventClosed => 22
  | .storeBusy => 23
  | .lineHeld => 24
  | .levelLower => 25
  | .notInMuster => 26
  | .storeFail => 27
  | .inUse => 28

/-- An arrow result, none when unset: 0xFF on a page too, which 12.3 does not say (log 39). -/
def resultBytes : Option ArrowResult → Bytes := orAbsent 1 fun r => byte1 r.number

/-- A deck glyph, none when unset: 0xFF on a page too, which 12.3 does not say (log 39). -/
def glyphBytes : Option Glyph → Bytes := orAbsent 1 fun g =>
  match g with
  | .up n => [Config.glyphByte true n]
  | .down n => [Config.glyphByte false n]

/-! ### The frames of the panel lines (12.3, R169, R171) -/

/-- A line frame: start byte, address, type, payload length, payload, and the CRC-16 over all but the start byte, low
byte first. -/
def lineFrameBytes (address type : Nat) (payload : Bytes) : Bytes :=
  let covered := byte1 address ++ byte1 type ++ byte2 payload.length ++ payload
  0xC3#8 :: covered ++ crc16Bytes covered

def PageRow.bytes (r : PageRow) : Bytes :=
  textBytes r.title ++ textBytes r.venue ++ byte1 r.hour ++ byte1 r.minute ++ byte1 r.mark.number ++
    resultBytes r.arrow ++ glyphBytes r.glyph ++ orAbsent 0 textBytes r.help

def PageLine.bytes (l : PageLine) : Bytes :=
  textBytes l.name ++ resultBytes l.result ++ glyphBytes l.glyph ++ orAbsent 0 textBytes l.help

def AlertText.bytes (a : AlertText) : Bytes :=
  textBytes a.station ++ orAbsent 0 textBytes a.help ++ a.instructions.flatMap textBytes

/-- The component a section draws. -/
def PageSection.comp : PageSection → Comp
  | .plate _ _ _ _ => .plate
  | .notice _ => .notice
  | .agenda _ => .agenda
  | .guide _ => .guide
  | .alert _ _ _ _ => .alert

/-- The contents of a section after its header (R94). -/
def PageSection.contents : PageSection → Bytes
  | .plate text phrase occupant dnd => textBytes text ++ textBytes phrase ++ textBytes occupant ++ flagsByte [dnd]
  | .notice text => textBytes text
  | .agenda rows => byte1 rows.length ++ rows.flatMap PageRow.bytes
  | .guide lines => byte1 lines.length ++ lines.flatMap PageLine.bytes
  | .alert letter result glyph texts =>
    byte1 texts.length ++ orAbsent 1 byte1 letter ++ resultBytes result ++ glyphBytes glyph ++
      texts.flatMap AlertText.bytes

/-- A section: component number, section length with the header, contents. -/
def PageSection.bytes (s : PageSection) : Bytes :=
  byte1 s.comp.number ++ byte2 (3 + s.contents.length) ++ s.contents

/-- A page: its header of 8 bytes with the brightness the line unit writes (R171), then its sections. -/
def Page.bytes (g : Page) (brightness : Nat) : Bytes :=
  g.visible.bytes ++ g.carried.bytes ++ byte1 ((g.banner.map AlertLevel.number).getD 0) ++ byte1 g.lang ++
    byte1 brightness ++ flagsByte [g.full] ++ byte2 g.length ++ g.sections.flatMap PageSection.bytes

/-- The type of a frame. -/
def LineFrame.type : LineFrame → Nat
  | .select _ => 0x01
  | .page _ _ => 0x02
  | .commit => 0x03
  | .poll _ => 0x04
  | .abort => 0x05
  | .generalAlert _ => 0x06

/-- The payload of a frame. -/
def LineFrame.payload : LineFrame → Bytes
  | .select _ => []
  | .page p b => p.bytes b
  | .commit => []
  | .poll b => byte1 b
  | .abort => []
  | .generalAlert l => byte1 l.number

/-- The drop that a frame of an exchange addresses: that of its panel, or 127 for a broadcast. -/
def Exchange.address (x : Exchange) : Nat :=
  match x.frame with
  | .generalAlert _ => 127
  | .select _ => dropOf x.panel
  | .page _ _ => dropOf x.panel
  | .commit => dropOf x.panel
  | .poll _ => dropOf x.panel
  | .abort => dropOf x.panel

/-- The frame sent at the beginning of an exchange (R102, R169). -/
def Exchange.bytes (x : Exchange) : Bytes := lineFrameBytes x.address x.frame.type x.frame.payload

/-- What a line sends for its exchange in flight. -/
def State.lineOut (s : State) (i : Fin 4) : Option Bytes := (s.line i).exch.map Exchange.bytes

/-! ### The frames of the control link (12.2, R156, R169) -/

/-- A link frame: start byte, length of kind, tag and body, kind, tag, body, and the CRC-16 over all but the start byte,
low byte first. -/
def linkFrameBytes (kind tag : Byte) (body : Bytes) : Bytes :=
  let covered := byte2 (body.length + 2) ++ kind :: tag :: body
  0xA5#8 :: covered ++ crc16Bytes covered

/-! #### Reports (10.5) -/

/-- The kind of a report (10.5). -/
def Report.kind : Report → Byte
  | .panelState _ _ _ _ _ => 0x60
  | .guestRequest _ _ _ _ _ => 0x61
  | .eventState _ _ _ _ _ _ _ _ => 0x62
  | .clock _ _ _ _ _ _ => 0x63
  | .musterInput _ _ _ _ _ => 0x64
  | .musterLevel _ _ _ _ _ _ _ _ _ => 0x64
  | .coverageComplete _ _ _ _ _ _ _ => 0x64
  | .coverageShort _ _ _ _ _ _ _ _ => 0x64
  | .restoreDone _ _ => 0x64
  | .kit _ _ _ _ _ _ => 0x65

/-- The report's own kind, byte 1 of its header, numbered as its rule lists the kinds (12.2; R34, R60, R108, R149). -/
def Report.ownKind : Report → Byte
  | .panelState _ .joined _ _ _ => 0
  | .panelState _ .recovered _ _ _ => 1
  | .panelState _ .fault _ _ _ => 2
  | .guestRequest .dndOn _ _ _ _ => 0
  | .guestRequest .dndOff _ _ _ _ => 1
  | .guestRequest .makeUp _ _ _ _ => 2
  | .eventState .advanced _ _ _ _ _ _ _ => 0
  | .eventState .skipped _ _ _ _ _ _ _ => 1
  | .eventState .removed _ _ _ _ _ _ _ => 2
  | .musterInput _ _ _ _ _ => 0
  | .musterLevel _ _ _ _ _ _ _ _ _ => 1
  | .coverageComplete _ _ _ _ _ _ _ => 2
  | .coverageShort _ _ _ _ _ _ _ _ => 3
  | .restoreDone _ _ => 4
  | .clock _ _ _ _ _ _ => Config.noKindByte
  | .kit _ _ _ _ _ _ => Config.noKindByte

/-- The fields of a report in the order its rule names them. -/
def Report.fields : Report → Bytes
  | .panelState panel _ reason reported u =>
    byte2 panel ++ orAbsent 1 (fun r => byte1 r.number) reason ++ orAbsent 1 (fun b => [b]) reported ++ byte4 u
  | .guestRequest _ panel source m u => byte2 panel ++ byte1 source.number ++ orAbsent 4 byte4 m ++ byte4 u
  | .eventState _ event old new m cause cancelled removed =>
    byte2 event ++ byte1 old.number ++ byte1 new.number ++ byte4 m ++ byte1 cause.number ++ flagsByte [cancelled] ++
      figureBytes .removedBookings removed
  | .clock cause r old new m set =>
    byte1 cause.number ++ byte4 r ++ signed2 old ++ signed2 new ++ orAbsent 4 byte4 m ++ flagsByte [set]
  | .musterInput u input reading drill general =>
    byte4 u ++ byte1 (AlarmInput.number input) ++ byte1 (readingNumber reading) ++ flagsByte [drill, general]
  | .musterLevel u old new cause drill general mode saved epoch =>
    byte4 u ++ byte1 old.number ++ byte1 new.number ++ byte1 cause.number ++ flagsByte [drill, general] ++
      byte1 mode.number ++ byte1 saved.number ++ byte4 epoch
  | .coverageComplete u level live covered seconds faults absents =>
    byte4 u ++ byte1 level.number ++
      figures [(.completeLive, live), (.completeCovered, covered), (.completeSeconds, seconds),
        (.completeFaults, faults), (.completeAbsents, absents)]
  | .coverageShort u level live covered faults absents missing ids =>
    byte4 u ++ byte1 level.number ++
      figures [(.shortLive, live), (.shortCovered, covered), (.shortFaults, faults), (.shortAbsents, absents),
        (.shortMissing, missing)] ++
      Config.listBytes .missing (ids.map byte2)
  | .restoreDone u seconds => byte4 u ++ figureBytes .restoreSeconds seconds
  | .kit state panels nodes dests texts reason =>
    byte1 state.number ++
      figures [(.kitPanels, panels), (.kitNodes, nodes), (.kitDests, dests), (.kitTexts, texts)] ++
      orAbsent 1 (fun r => byte1 r.number) reason

/-- The body of a report: a header of the lost flag and the report's own kind, then its fields (12.2, R159). -/
def Report.body (r : Report) (lost : Bool) : Bytes := flagsByte [lost] ++ r.ownKind :: r.fields

/-- The frame of a report: tag 0, whatever the report (R156). -/
def Report.frame (r : Report) (lost : Bool) : Frame := ⟨r.kind, 0, r.body lost⟩

/-! #### Replies (R156) -/

/-- A pending change of offset: its offset and R_e. -/
def PendingChange.bytes (c : PendingChange) : Bytes := signed2 c.offset ++ byte4 c.effective

/-- A line as STATUS shows it (R161). -/
def LineStatus.bytes (l : LineStatus) : Bytes :=
  figures [(.linePanels, l.declared), (.lineAbsent, l.absent), (.lineLive, l.live), (.lineServing, l.serving),
      (.lineUpdating, l.updating), (.lineFault, l.fault), (.lineQueue, l.queue), (.lineSlots, l.slots),
      (.lineHeld, l.held)] ++
    orAbsent 2 byte2 l.job

/-- A coverage record as STATUS shows it (R150). -/
def CoverageStatus.bytes (c : CoverageStatus) : Bytes :=
  byte1 c.level.number ++
    figures [(.recordStart, c.sinceStart), (.recordDeadline, c.toDeadline), (.recordLive, c.live),
      (.recordCovered, c.covered)] ++
    flagsByte [c.complete, c.short]

/-- The width of a coverage record in STATUS: the level, four figures and the flags. -/
def coverageWidth : Nat :=
  2 + ([.recordStart, .recordDeadline, .recordLive, .recordCovered].map Config.width).sum

/-- The STATUS reply, group by group (R161, R28, R150). -/
def StatusReply.bytes (r : StatusReply) : Bytes :=
  byte1 r.zone ++ byte1 r.kitState.number ++ flagsByte [r.fault, r.checkpoint] ++
    (byte4 r.r ++ byte4 r.u ++ flagsByte [r.clockSet] ++ signed2 r.offset ++ orAbsent 4 byte4 r.m ++
      orAbsent 6 PendingChange.bytes r.change) ++
    (byte1 (readingNumber r.drillReading) ++ flagsByte [r.drillLatch] ++ byte1 (readingNumber r.generalReading) ++
      flagsByte [r.generalLatch] ++ byte1 r.level.number ++ byte1 r.mode.number ++ byte1 r.saved.number ++
      orAbsent coverageWidth CoverageStatus.bytes r.coverage ++
      figures [(.panels, r.declared), (.alertLines, r.alertLines)]) ++
    byte4 r.epoch ++ figures [(.events, r.events), (.bookings, r.bookings), (.texts, r.texts)] ++
    (r.lines.l0.bytes ++ r.lines.l1.bytes ++ r.lines.l2.bytes ++ r.lines.l3.bytes) ++
    (figureBytes .reports r.reports ++ flagsByte [r.lost] ++
      figures [(.gaps, r.gapCount), (.crcs, r.crcCount), (.overflows, r.overflowCount)])

/-- A declaration, its fields in the order of 1.4 with the widths of PANEL_DECLARE (12.2), its unused
language places 0xFF. DESIGN CHOICE (log 44): the panel id, a field of the declaration too, is the reply's opening field
(R162) and is not written a second time here. Unsafe. -/
def Decl.bytes (d : Decl) : Bytes :=
  byte1 d.kind.code ++ d.fitted.bytes ++
    orAbsent 10 (fun p : Position => byte1 p.deck ++ signed2 p.x ++ signed2 p.y ++ byte1 p.quadrant ++ signed2 p.trim ++
      byte2 p.radius) d.position ++
    byte1 d.station ++ [d.mask] ++ orAbsent 1 byte1 d.venue ++ orAbsent 1 byte1 d.ownNode ++ byte1 d.langs.length ++
    d.langs.flatMap byte1 ++ List.replicate (4 - d.langs.length) 0xFF#8 ++ byte2 d.platePhrase ++ textBytes d.plateText

/-- A pin, as GUIDE_SET lays it out (12.2). -/
def Pin.bytes (p : Pin) : Bytes := byte1 p.dest ++ byte1 p.arrow ++ orAbsent 1 byte1 p.via ++ flagsByte [p.hold]

/-- A held agenda row without its texts (R51, R162). -/
def Row.bytes (r : Row) : Bytes :=
  byte2 r.event ++ byte2 r.title ++ byte2 r.venueName ++ byte1 r.hour ++ byte1 r.minute ++ byte1 r.mark.number ++
    resultBytes r.arrow ++ glyphBytes r.glyph

/-- A banner: none, DRILL or MUSTER, numbered 0 to 2 in a reply too, as the page header carries it (log 39). -/
def bannerBytes (b : Option AlertLevel) : Bytes := byte1 ((b.map AlertLevel.number).getD 0)

/-- A job page as R84 and R162 list it: four fields of one byte. -/
def JobPage.bytes (j : JobPage) : Bytes := j.visible.bytes ++ bannerBytes j.banner ++ byte1 j.lang ++ flagsByte [j.full]

def Shown.bytes (x : Shown) : Bytes := x.set.bytes ++ bannerBytes x.banner ++ orAbsent 1 byte1 x.lang ++ x.held.bytes

def Notice.bytes (n : Notice) : Bytes := byte2 n.phrase ++ orAbsent 4 byte4 n.expiry

/-- A cabin part, a vacant one with an empty occupant line (log 39). -/
def Cabin.bytes (c : Cabin) : Bytes := textBytes (c.occupant.getD []) ++ byte1 c.lang ++ flagsByte [c.dnd]

/-- A draw class, none when unset. -/
def classBytes : Option DrawClass → Bytes := orAbsent 1 fun c => byte1 c.number

/-- The DIRTY set with the mark class of each member. -/
def Marks.bytes (m : Marks) : Bytes :=
  m.comps.bytes ++ Config.listBytes .dirty (m.comps.members.map fun c => classBytes (m.get c))

/-- The target of a route: a node, or a point. -/
def Target.bytes : Target → Bytes
  | .node i => Config.choiceBytes .target 0 (byte1 i)
  | .point d x y => Config.choiceBytes .target 1 (byte1 d ++ signed2 x ++ signed2 y)

/-- The goal of a route: the point, or the portal with its cost. -/
def Goal.bytes : Goal → Bytes
  | .point d x y => Config.choiceBytes .goal 0 (byte1 d ++ signed2 x ++ signed2 y)
  | .portal i c => Config.choiceBytes .goal 1 (byte1 i ++ figureBytes .portalCost c)

/-- An arrow slot, every field of R63. -/
def Slot.bytes (s : Slot) : Bytes :=
  orAbsent 1 byte1 s.dest ++ orAbsent 2 byte2 s.name ++ orAbsent 1 byte1 s.portal ++ orAbsent 1 byte1 s.vertical ++
    orAbsent (Config.choiceWidth .target) Target.bytes s.target ++ orAbsent 1 byte1 s.prev ++
    resultBytes s.result ++ glyphBytes s.glyph ++ flagsByte [s.pinned]

/-- A view of PANEL_READ (R162). The cabin part and the rotation take no bytes on a panel that has none (log 39). -/
def PanelView.bytes : PanelView → Bytes
  | .ident decl line drop guide pins =>
    decl.bytes ++ byte1 line ++ byte1 drop ++ Config.listBytes .guide (guide.map byte1) ++
      Config.listBytes .pins (pins.map Pin.bytes)
  | .content fitted inUse visible dirty inFlight jobClass jobPage shown rows notice cabin bookings rotation =>
    fitted.bytes ++ inUse.bytes ++ visible.bytes ++ dirty.bytes ++ inFlight.bytes ++ classBytes jobClass ++
      orAbsent 4 JobPage.bytes jobPage ++ shown.bytes ++ Config.listBytes .rows (rows.map Row.bytes) ++
      orAbsent 6 Notice.bytes notice ++
      (match cabin with
        | some c => c.bytes ++ Config.listBytes .bookings (bookings.map byte2)
        | none => []) ++
      (match rotation with
        | some (index, lang, due) => figureBytes .rotationIndex index ++ orAbsent 1 byte1 lang ++ orAbsent 4 byte4 due
        | none => [])
  | .link state reason miss nextPoll partialCount lastFull commitTime lastBusy entry rest ambient lastPresence quiet
      brightness =>
    byte1 state.number ++ orAbsent 1 (fun r => byte1 r.number) reason ++ figureBytes .misses miss ++
      orAbsent 4 byte4 nextPoll ++ figureBytes .partials partialCount ++ orAbsent 4 byte4 lastFull ++
      orAbsent 4 byte4 commitTime ++ orAbsent 1 (fun b => flagsByte [b]) lastBusy ++
      orAbsent (2 + Config.width .place) (fun e : DrawClass × Bool × Nat =>
        byte1 e.1.number ++ flagsByte [e.2.1] ++ figureBytes .place e.2.2) entry ++
      byte1 rest.number ++ byte1 ambient ++ orAbsent 4 byte4 lastPresence ++ figureBytes .quiet quiet ++
      orAbsent 1 byte1 brightness
  | .route epoch barred slots pins =>
    byte4 epoch ++ flagsByte [barred] ++ Config.listBytes .slots (slots.map Slot.bytes) ++
      Config.listBytes .vias (pins.map fun x => orAbsent 1 byte1 x.1 ++ orAbsent 1 (fun n => byte1 n.number) x.2)

/-- The view's selector (12.2). -/
def PanelView.number : PanelView → Nat
  | .ident _ _ _ _ _ => 0
  | .content _ _ _ _ _ _ _ _ _ _ _ _ _ => 1
  | .link _ _ _ _ _ _ _ _ _ _ _ _ _ _ => 2
  | .route _ _ _ _ => 3

/-- An event record, every field of 3.1 with the widths of EVENT_POST (R163, 12.2). -/
def Event.bytes (e : Event) : Bytes :=
  byte2 e.id ++ byte1 e.venue ++ byte1 e.category ++ byte4 e.start ++ byte4 e.stop ++ byte2 e.title ++ byte2 e.lead ++
    byte2 e.linger ++ flagsByte [e.featured, e.bookingOnly, e.cancelled] ++ byte1 e.state.number ++
    figureBytes .eventBookings e.bookings

/-- The figures of an arrow, from fine to the previous arrow used (R82). -/
def ArrowCalc.bytes (c : ArrowCalc) : Bytes :=
  figures [(.fine, c.fine), (.theta, c.theta), (.bearing, c.bearing), (.heading, c.heading),
      (.relative, c.relative)] ++
    byte1 c.raw ++ orAbsent 1 byte1 c.prevUsed

/-- The flags of a route computation (R82): kept in bit 0, clear before stage ARROW (log 39), and pin applied in bit 1. -/
def RouteCalc.flags (r : RouteCalc) : Bytes := flagsByte [r.figures.any (·.kept), r.pinApplied]

/-- A route computation (R82): the fields of a stage that was not reached are left out. DESIGN CHOICE (log 39): R82 does
not say on which side the vertical node and the deck glyph fall at NO_POSITION and NO_PORTAL; they are sent as none, 0xFF,
since R82 lists none among their contents. Unsafe. -/
def RouteCalc.bytes (r : RouteCalc) : Bytes :=
  byte1 r.stage.number ++ orAbsent 0 Goal.bytes r.goal ++
    orAbsent (1 + Config.width .verticalCost) (fun v : Nat × Nat => byte1 v.1 ++ figureBytes .verticalCost v.2)
      r.vertical ++
    orAbsent 0 (fun q : Int × Int => signed2 q.1 ++ signed2 q.2) r.targetXY ++ glyphBytes r.glyph ++
    orAbsent 0 (fun q : Int × Int => Config.differenceBytes .dx q.1 ++ Config.differenceBytes .ds q.2) r.delta ++
    orAbsent 0 ArrowCalc.bytes r.figures ++ r.flags ++ resultBytes (some r.result)

/-- The fields after the result code in a reply of a kind, in the order the owning rule names them. -/
def ReplyBody.bytes (kind : Byte) : ReplyBody → Bytes
  | .empty => []
  | .zone h run rest1 rest2 dwell sweep deadline =>
    byte1 h ++ byte2 run ++ byte2 rest1 ++ byte2 rest2 ++ byte1 dwell ++ byte2 sweep ++ byte2 deadline
  | .declare fitted trim radius => fitted.bytes ++ orAbsent 2 signed2 trim ++ orAbsent 2 byte2 radius
  | .changed f => flagsByte [f]
  | .offset outcome replaced o => byte1 outcome.number ++ flagsByte [replaced] ++ signed2 o
  | .event lead linger state replaced => byte2 lead ++ byte2 linger ++ byte1 state.number ++ flagsByte [replaced]
  | .count n => figureBytes (.answered kind) n
  | .removed f => flagsByte [f]
  | .status r => r.bytes
  | .panel id view => byte2 id ++ byte1 view.number ++ view.bytes
  | .eventRecord e => flagsByte [e.isNone] ++ orAbsent 0 Event.bytes e
  | .probe epoch barred route => byte4 epoch ++ flagsByte [barred] ++ route.bytes

/-- The frame of a reply: the request's tag, and a body that opens with the result code; a refusal carries the code
alone (R156). -/
def Reply.frame (r : Reply) : Frame := ⟨r.kind, r.tag, byte1 r.code.number ++ r.body.bytes r.kind⟩

/-! #### The transmitter (R158) -/

/-- The frame now being sent, as kind, tag and body. -/
def TxFrame.frame : TxFrame → Frame
  | .report lost r => r.frame lost
  | .reply r => r.frame
  | .checkpointReply r => r.frame

/-- What the link sends for the frame in its transmitter. -/
def State.linkOut (s : State) : Option Bytes :=
  s.link.tx.map fun x => linkFrameBytes x.frame.kind x.frame.tag x.frame.body

end Sys2Proof.Machine
end

