-- ==== Sys2Proof/WellFormed.lean ====
section
/-! DEFINITION. Which commands can reach the block: the limits the spec sets on what a frame, a panel id and a kind can
be. `exec` gives every command its meaning, well-formed or not. -/

namespace Sys2Proof

/-- A body of at most 1024 bytes (10.1). -/
def bodyOk (body : Bytes) : Bool := body.length + 2 ≤ Config.maxFrameLength

/-- A line frame: at least its start, address, type, length and CRC-16, at most 1024 bytes of payload (12.3). -/
def lineFrameOk (frame : Bytes) : Bool := 7 ≤ frame.length && frame.length ≤ Config.maxPage + 7

/-- A panel id (R6). -/
def panelOk (panel : Nat) : Bool := panel ≤ 255

/-- The request kinds of the catalogue (10.4): 0x01..0x0A, 0x10..0x18, 0x20..0x22, 0x28..0x2A and 0x30..0x33. -/
def requestKind (k : Byte) : Bool :=
  let n := k.toNat
  (1 ≤ n && n ≤ 0x0A) || (0x10 ≤ n && n ≤ 0x18) || (0x20 ≤ n && n ≤ 0x22) || (0x28 ≤ n && n ≤ 0x2A)
    || (0x30 ≤ n && n ≤ 0x33)

/-- The image with its CRC-32 fits the 256 KiB of the non-volatile memory (section 11). -/
def imageOk (image : Bytes) : Bool := image.length + 4 ≤ 262144

/-- The well-formed commands. -/
def Instr.wellFormed : Instr → Bool
  | .startUp _ _ _ readBack => imageOk readBack
  | .linkFrameReceived bytes => bytes.length ≤ Config.maxFrameLength + 5
  | .linkGapTimeout => true
  | .linkFrameSent => true
  | .unknownKind kind _ body => !requestKind kind && bodyOk body
  | .zoneSet _ body => bodyOk body
  | .panelDeclare _ body => bodyOk body
  | .panelWithdraw _ body => bodyOk body
  | .guideSet _ body => bodyOk body
  | .nodeSet _ body => bodyOk body
  | .nodeState _ body => bodyOk body
  | .destSet _ body => bodyOk body
  | .destDrop _ body => bodyOk body
  | .phrasePut _ body => bodyOk body
  | .checkpoint _ body => bodyOk body
  | .eraseEnd _ => true
  | .writeEnd _ image => imageOk image
  | .checkpointComplete readBack => imageOk readBack
  | .timeSet _ body => bodyOk body
  | .offsetSet _ body => bodyOk body
  | .advance => true
  | .eventPost _ body => bodyOk body
  | .eventCancel _ body => bodyOk body
  | .eventDrop _ body => bodyOk body
  | .bookingAdd _ body => bodyOk body
  | .bookingRemove _ body => bodyOk body
  | .cabinSet _ body => bodyOk body
  | .noticeSet _ body => bodyOk body
  | .modeSet _ body => bodyOk body
  | .musterRaise _ body => bodyOk body
  | .allClear _ body => bodyOk body
  | .lineReset _ body => bodyOk body
  | .redraw _ body => bodyOk body
  | .restart _ body => bodyOk body
  | .status _ body => bodyOk body
  | .panelRead _ body => bodyOk body
  | .eventRead _ body => bodyOk body
  | .routeProbe _ body => bodyOk body
  | .rotationStep panel => panelOk panel
  | .alarmInputChange _ _ => true
  | .alarmDebounceExpiry _ => true
  | .coverageDeadline => true
  | .generalAlertDue _ => true
  | .generalAlertSent _ => true
  | .pollDue panel => panelOk panel
  | .selectAnswer _ frame => lineFrameOk frame
  | .pageAnswer _ frame => lineFrameOk frame
  | .commitAck _ frame => lineFrameOk frame
  | .abortAck _ frame => lineFrameOk frame
  | .pollAnswer _ frame => lineFrameOk frame
  | .probeAnswer _ frame => lineFrameOk frame
  | .answerTimeout _ => true
  | .strayPanelFrame _ _ => true
  | .updateTimeout panel => panelOk panel
  | .heldSlotRelease _ => true
  | .sweepStep _ => true
  | .linkByteReceived _ => true

end Sys2Proof
end

