-- ==== Sys2Proof/Safety.lean ====
section
/-! DEFINITION. What a lawful state is. The manual names laws of the controller (the ship-minute law, the visible-set
law, the draw-queue law and others); each stands here as a predicate of the state, with what else a step needs to
keep it. `exec` and `step` never ask for them: they are what claims assume and conclude. -/

namespace Sys2Proof.Machine

/-- Every declared panel has a property of its id and its record. -/
def State.everyPanel (s : State) (P : Nat → Panel → Prop) : Prop := ∀ e ∈ s.panels, P e.1 e.2

/-- Every kit the store holds, in the image or in the snapshot of a checkpoint, has a property. -/
def State.everyKit (s : State) (P : Kit → Prop) : Prop :=
  (∀ k crc, s.store.image = .written k crc → P k) ∧ ∀ c, s.store.checkpoint = some c → P c.snapshot

/-! ### The tables -/

/-- The tables of a kit are in their canonical form. -/
def Kit.canonical (k : Kit) : Prop :=
  k.panels.sorted = true ∧ k.nodes.sorted = true ∧ k.dests.sorted = true ∧ k.phrases.sorted = true

/-- Every table is in its one canonical form, so that equal tables are equal data. -/
def State.tablesLaw (s : State) : Prop :=
  s.panels.sorted = true ∧ s.nodes.sorted = true ∧ s.dests.sorted = true ∧ s.phrases.sorted = true ∧
    s.everyKit Kit.canonical

/-! ### The clock (R19 to R26) -/

/-- The ship-minute law (R21): M is floor((R + 60 × O) / 60), and 0 for a negative sum, while the clock is set; it is
unset otherwise. -/
def Clock.minuteLaw (c : Clock) : Prop :=
  c.m = if c.set then some (if (c.r : Int) + 60 * c.offset < 0 then 0 else (((c.r : Int) + 60 * c.offset) / 60).toNat)
    else none

/-- An offset of R26: a multiple of 15 within -720..+840. -/
def lawfulOffset (o : Int) : Prop := o % 15 = 0 ∧ -720 ≤ o ∧ o ≤ 840

/-- The clock unit's state within its ranges (R19, R20, R24, R26), and the ship-minute law. -/
def State.clockLaw (s : State) : Prop :=
  s.clock.u ≤ 4294967295000 ∧ s.clock.r ≤ 4294967295 ∧ lawfulOffset s.clock.offset ∧
    (∀ ch, s.clock.change = some ch → lawfulOffset ch.offset) ∧ s.clock.minuteLaw

/-! ### What a panel must show (R8, R85, R87, R97) -/

/-- PLATE and ALERT are in the fitted set (R8). -/
def Decl.fitOk (d : Decl) : Prop := d.fitted.plate = true ∧ d.fitted.alert = true

/-- R85: PLATE is always in use, NOTICE while a notice is held, AGENDA while the clock is set and the held rows are not
empty, GUIDE while the guide list is not empty, and ALERT while the level is DRILL or MUSTER. -/
def Panel.inUseOk (p : Panel) (level : Level) (clockSet : Bool) : Prop :=
  p.content.inUse = {
    plate := true
    notice := p.content.notice.isSome
    agenda := clockSet && decide (p.content.rows ≠ [])
    guide := decide (p.guide ≠ [])
    alert := decide (level = .drill ∨ level = .muster) }

/-- The in-use set is that of R85, and a panel without AGENDA holds no rows; the shown set lies in the fitted set and
holds PLATE unless it is empty, and so does what the page of a job will leave shown, which lies in the fitted set but for
what a redeclaration has removed since (R97). -/
def Panel.setsOk (p : Panel) (level : Level) (clockSet : Bool) : Prop :=
  p.decl.fitOk ∧ p.inUseOk level clockSet ∧ (p.decl.fitted.agenda = false → p.content.rows = []) ∧
    p.content.shown.set.subset p.decl.fitted = true ∧
    (p.content.shown.set = .nil ∨ p.content.shown.set.plate = true) ∧
    ∀ j, p.content.jobPage = some j → j.visible.plate = true ∧ j.removed.plate = false ∧
      j.visible.subset (p.decl.fitted.union j.removed) = true

/-- The sets of every panel, and the fitted sets of every stored kit. -/
def State.setsLaw (s : State) : Prop :=
  s.everyPanel (fun _ p => p.setsOk s.muster.level s.clock.set) ∧ s.everyKit fun k => ∀ e ∈ k.panels, e.2.decl.fitOk

/-- The visible-set law (R87): exactly PLATE and ALERT during a drill or muster, and never ALERT at another level. -/
def State.visibleLaw (s : State) : Prop :=
  s.everyPanel fun _ p => if s.muster.level.alarmed then p.visible = .muster else p.visible.alert = false

/-- The DIRTY set of a new content record (R100): every component of V with class CONTENT, ALERT with class ALERT; and
AGENDA, which its first evaluation marks when it gives rows, whether or not it is in V (R9, R54). -/
def Panel.firstDirty (p : Panel) : Prop :=
  ∀ c, p.content.dirty.get c =
    if p.visible.has c then some (if c = .alert then .alert else .content)
    else if c = .agenda ∧ p.content.rows ≠ [] then some .content
    else none

/-- The shown-record law (R97). -/
def State.shownLaw (s : State) : Prop :=
  s.everyPanel fun _ p => p.content.shown.set.subset p.decl.fitted = true ∧
    (p.content.shown.set = .nil ∨ p.content.shown.set.plate = true)

/-! ### The rest ladder (R131, R132) -/

/-- The rest-ladder law (R131): during a drill or muster every screen stands at ACTIVE. -/
def State.restLaw (s : State) : Prop :=
  s.everyPanel fun _ p => s.muster.level.alarmed = true → p.decl.kind.isScreen = true → p.line.rest = .active

/-! ### The draw queues (R109) -/

/-- The classes of a queue fall from its head to its tail (R109). -/
def classOrdered (q : List Entry) : Prop := q.Pairwise fun a b => b.cls.rank ≤ a.cls.rank

/-- The draw-queue law of one line (R109): each panel at most once, only panels declared on the line, ordered by class.
An exchange with a panel that has not been withdrawn, and a job of one, are with a panel of the line. -/
def State.lineQueueOk (s : State) (i : Fin 4) : Prop :=
  ((s.line i).queue.map (·.panel)).Nodup ∧ classOrdered (s.line i).queue ∧
    (∀ e ∈ (s.line i).queue, lineOf e.panel = i ∧ (s.panels.look e.panel).isSome) ∧
    (∀ x, (s.line i).exch = some x → x.orphan = false → (∀ a, x.frame ≠ .generalAlert a) → lineOf x.panel = i)

/-- The draw-queue law (R109). -/
def State.queueLaw (s : State) : Prop := s.panels.sorted = true ∧ ∀ i, s.lineQueueOk i

/-! ### The link unit (R153 to R159) -/

/-- The receive queue and clear-to-send (R154), the report queue (R159), the discard counters (R153, R154); between two
commands no request is running (R155), and a tag is kept exactly while a checkpoint is in flight (R157). -/
def State.linkLaw (s : State) : Prop :=
  s.link.queue.length ≤ 8 ∧ (s.link.cts = true ↔ s.link.queue.length < 6) ∧ s.link.reports.length ≤ 64 ∧
    s.link.gapCount ≤ 65535 ∧ s.link.crcCount ≤ 65535 ∧ s.link.overflowCount ≤ 65535 ∧
    s.link.running = none ∧ s.link.checkpointTag.isSome = s.store.checkpoint.isSome

/-! ### Bookings (R41) -/

/-- The booking law (R41): no pair twice, every booking of an event of the table and a declared DOOR, at most 1024 pairs
and 16 for each panel, and every event's count the number of its pairs. The event ids are distinct (R30). -/
def State.bookingLaw (s : State) : Prop :=
  s.bookings.Nodup ∧ (s.events.map (·.id)).Nodup ∧ s.panels.sorted = true ∧
    (∀ b ∈ s.bookings, (s.event b.event).isSome = true ∧ s.isDoor b.panel = true) ∧
    (∀ e ∈ s.events, e.bookings = s.countBookings fun b => b.event = e.id) ∧
    s.bookings.length ≤ 1024 ∧ ∀ id, (s.countBookings fun b => b.panel = id) ≤ 16

/-! ### The programme and the agendas (R30, R49 to R52) -/

/-- The order of the event table (R30). -/
def eventOrdered (es : List Event) : Prop :=
  es.Pairwise fun a b => a.start < b.start ∨ (a.start = b.start ∧ a.id < b.id)

/-- Is an event taken into the agenda of a panel at ship minute M, by the condition of the panel's kind (R50)? -/
def State.takesNow (s : State) (m id : Nat) (d : Decl) (e : Event) : Bool :=
  match d.kind with
  | .venue => d.venue = some e.venue ∧ e.bookingOnly = false ∧ e.state ≠ .ended ∧ e.start ≤ m + 720
  | .corridor => e.featured = true ∧ e.bookingOnly = false ∧ d.mask.getLsbD e.category = true ∧
      (e.state = .soon ∨ e.state = .on)
  | .landing => e.featured = true ∧ e.bookingOnly = false ∧ d.mask.getLsbD e.category = true ∧
      (e.state = .soon ∨ e.state = .on)
  | .door => ⟨id, e.id⟩ ∈ s.bookings ∧
      (e.state = .on ∨ e.state = .soon ∨ (e.state = .listed ∧ e.start ≤ m + 120))

/-- The events of a panel's agenda: those taken, in the order of the event table, up to the kind's limit; none while the
clock is unset (R49, R50). -/
def State.agendaEvents (s : State) (id : Nat) (d : Decl) : List Event :=
  match s.clock.m with
  | none => []
  | some m => (s.events.filter (s.takesNow m id d)).take (match d.kind with
      | .door => 2
      | .venue => 3
      | .corridor => 4
      | .landing => 4)

/-- The rows of a panel's agenda, field by field (R51); row k of a CORRIDOR or LANDING takes its arrow from slot k. -/
def State.agendaRows (s : State) (id : Nat) (p : Panel) : List Row :=
  (s.agendaEvents id p.decl).zipIdx.map fun (e, k) =>
    let x := if p.decl.kind = .corridor ∨ p.decl.kind = .landing then p.agendaSlots.getD k .empty else .empty
    { event := e.id
      title := e.title
      venueName := match s.dests.look e.venue with
        | some d => d.name
        | none => 0
      hour := e.start % 1440 / 60
      minute := e.start % 1440 % 60
      mark := if e.cancelled then .cancelled else if e.state = .on then .now else if e.state = .soon then .soon else .next
      arrow := x.result
      glyph := x.glyph }

/-- Every agenda holds what R50 and R51 choose from the event table, the bookings and the clock of the moment (R53). -/
def State.agendaLaw (s : State) : Prop :=
  s.everyPanel fun id p => p.decl.fitted.agenda = true → p.content.rows = s.agendaRows id p

/-- The agenda slots that serve a panel's rows (R52): slot k has the venue of the k-th event as its destination, and is
empty beyond the last. A slot that keeps its venue keeps its record, or, `again`, is computed from it (R67, R68); one
with another venue is computed without a previous arrow. A panel without AGENDA chooses no rows. -/
def Panel.agendaSlotsNow (p : Panel) (e : RouteEnv) (again : Bool) (evs : List Event) : List Slot :=
  if p.decl.fitted.agenda then
    if p.decl.kind = .corridor ∨ p.decl.kind = .landing then
      (List.range 4).map fun k =>
        match evs[k]? with
        | none => .empty
        | some ev =>
          let old := p.agendaSlots.getD k .empty
          if old.dest = some ev.venue then (if again then p.agendaSlot e ev.venue old else old)
          else p.agendaSlot e ev.venue .empty
    else []
  else if again then
    p.agendaSlots.map fun o =>
      match o.dest with
      | some d => p.agendaSlot e d o
      | none => .empty
  else p.agendaSlots

/-! ### Coverage (R144) -/

/-- The coverage law (R144): the live count of the record is the number of panels LIVE, SERVING or UPDATING, the covered
count that of those which show the banner of its level; covered ≤ live ≤ declared panels. -/
def State.coverageLaw (s : State) : Prop :=
  ∀ c, s.muster.coverage = some c →
    c.live = liveCount s.panels ∧ c.covered = coveredCount s.panels c.level ∧ c.covered ≤ c.live ∧
      c.live ≤ s.panels.length

/-! ### Arrow results (R80) -/

/-- The arrow-result law for a result and a deck glyph (R80): one of the eight arrows, HERE or NO_ROUTE, and a deck count
of 1..9. -/
def arrowShown (r : Option ArrowResult) (g : Option Glyph) : Prop :=
  (∀ n, r = some (.arrow n) → n ≤ 7) ∧
    (∀ n, g = some (.up n) → 1 ≤ n ∧ n ≤ 9) ∧ ∀ n, g = some (.down n) → 1 ≤ n ∧ n ≤ 9

/-- A slot shows what R80 allows, and its previous arrow is one of the eight. -/
def Slot.lawful (x : Slot) : Prop := arrowShown x.result x.glyph ∧ ∀ n, x.prev = some n → n ≤ 7

/-- Every pin points by one of the eight arrows (R11). -/
def pinsOk (ps : List Pin) : Prop := ∀ x ∈ ps, x.arrow ≤ 7

/-- The arrow-result law (R80) of every slot and of every agenda row, with the pins, those of stored kits included. -/
def State.arrowLaw (s : State) : Prop :=
  s.everyPanel (fun _ p =>
    (∀ x ∈ p.guideSlots ++ p.agendaSlots ++ [p.alertSlot], x.lawful) ∧
      (∀ x ∈ p.content.rows, arrowShown x.arrow x.glyph) ∧ pinsOk p.pins) ∧
    s.everyKit fun k => ∀ e ∈ k.panels, pinsOk e.2.pins

/-! ### Jobs and update slots (R112, R117) -/

/-- The frames of a draw job (R112, R121). -/
def LineFrame.ofJob : LineFrame → Bool
  | .select probe => !probe
  | .page _ _ => true
  | .commit => true
  | .abort => true
  | .poll _ => false
  | .generalAlert _ => false

/-- The doors of a line that are UPDATING. -/
def State.updatingDoors (s : State) (i : Fin 4) : Nat :=
  s.panels.count fun id p => decide (lineOf id = i) && decide (p.line.state = .updating) && decide (p.decl.kind = .door)

/-- The job of a line (R112): it holds the line with an exchange of its own panel; its panel, unless withdrawn since, is
a SERVING panel of the line; a DOOR began it with an update slot free. -/
def State.jobOk (s : State) (i : Fin 4) (j : Job) : Prop :=
  (∃ x, (s.line i).exch = some x ∧ x.panel = j.panel ∧ x.orphan = j.orphan ∧ x.frame.ofJob = true) ∧
    (j.orphan = false → lineOf j.panel = i ∧ ∃ p, s.panels.look j.panel = some p ∧ p.line.state = .serving ∧
      j.door = decide (p.decl.kind = .door)) ∧
    (j.door = true → (s.line i).slots < 4)

/-- The slot law of a line (R117): its slot count is the number of its UPDATING doors and held slots, and never above 4.
With it, what a job is; that only a job has an exchange of a job or a SERVING panel; that a probe finds its panel ABSENT
or in FAULT; and that an UPDATING panel has a COMMIT time (R106). -/
def State.slotOk (s : State) (i : Fin 4) : Prop :=
  (s.line i).slots = s.updatingDoors i + (s.line i).held.length ∧ (s.line i).slots ≤ 4 ∧
    (∀ j, (s.line i).job = some j → s.jobOk i j) ∧
    (∀ x, (s.line i).exch = some x → x.frame.ofJob = true → (s.line i).job.isSome = true) ∧
    (∀ x p, (s.line i).exch = some x → x.frame = .select true → x.orphan = false → s.panels.look x.panel = some p →
      p.line.state = .absent ∨ p.line.state = .fault) ∧
    ∀ id p, s.panels.look id = some p → lineOf id = i →
      (p.line.state = .serving → ∃ j, (s.line i).job = some j ∧ j.panel = id ∧ j.orphan = false) ∧
      (p.line.state = .updating → p.line.commitTime.isSome = true)

/-- The slot law (R117) of the four lines. -/
def State.slotLaw (s : State) : Prop := s.panels.sorted = true ∧ ∀ i, s.slotOk i

/-! ### Requests -/

end Sys2Proof.Machine

namespace Sys2Proof

/-- The frame of a request row. -/
def Instr.frame : Instr → Option Machine.Frame
  | .unknownKind kind tag body => if requestKind kind then none else some ⟨kind, tag, body⟩
  | .zoneSet tag body => some ⟨0x01, tag, body⟩
  | .panelDeclare tag body => some ⟨0x02, tag, body⟩
  | .panelWithdraw tag body => some ⟨0x03, tag, body⟩
  | .guideSet tag body => some ⟨0x04, tag, body⟩
  | .nodeSet tag body => some ⟨0x05, tag, body⟩
  | .nodeState tag body => some ⟨0x06, tag, body⟩
  | .destSet tag body => some ⟨0x07, tag, body⟩
  | .destDrop tag body => some ⟨0x08, tag, body⟩
  | .phrasePut tag body => some ⟨0x09, tag, body⟩
  | .checkpoint tag body => some ⟨0x0A, tag, body⟩
  | .timeSet tag body => some ⟨0x10, tag, body⟩
  | .offsetSet tag body => some ⟨0x11, tag, body⟩
  | .eventPost tag body => some ⟨0x12, tag, body⟩
  | .eventCancel tag body => some ⟨0x13, tag, body⟩
  | .eventDrop tag body => some ⟨0x14, tag, body⟩
  | .bookingAdd tag body => some ⟨0x15, tag, body⟩
  | .bookingRemove tag body => some ⟨0x16, tag, body⟩
  | .cabinSet tag body => some ⟨0x17, tag, body⟩
  | .noticeSet tag body => some ⟨0x18, tag, body⟩
  | .modeSet tag body => some ⟨0x20, tag, body⟩
  | .musterRaise tag body => some ⟨0x21, tag, body⟩
  | .allClear tag body => some ⟨0x22, tag, body⟩
  | .lineReset tag body => some ⟨0x28, tag, body⟩
  | .redraw tag body => some ⟨0x29, tag, body⟩
  | .restart tag body => some ⟨0x2A, tag, body⟩
  | .status tag body => some ⟨0x30, tag, body⟩
  | .panelRead tag body => some ⟨0x31, tag, body⟩
  | .eventRead tag body => some ⟨0x32, tag, body⟩
  | .routeProbe tag body => some ⟨0x33, tag, body⟩
  | .startUp _ _ _ _ => none
  | .linkFrameReceived _ => none
  | .linkGapTimeout => none
  | .linkFrameSent => none
  | .eraseEnd _ => none
  | .writeEnd _ _ => none
  | .checkpointComplete _ => none
  | .advance => none
  | .rotationStep _ => none
  | .alarmInputChange _ _ => none
  | .alarmDebounceExpiry _ => none
  | .coverageDeadline => none
  | .generalAlertDue _ => none
  | .generalAlertSent _ => none
  | .pollDue _ => none
  | .selectAnswer _ _ => none
  | .pageAnswer _ _ => none
  | .commitAck _ _ => none
  | .abortAck _ _ => none
  | .pollAnswer _ _ => none
  | .probeAnswer _ _ => none
  | .answerTimeout _ => none
  | .strayPanelFrame _ _ => none
  | .updateTimeout _ => none
  | .heldSlotRelease _ => none
  | .sweepStep _ => none
  | .linkByteReceived _ => none

end Sys2Proof

namespace Sys2Proof.Machine

/-- The length rules of R170, kind by kind. -/
def lengthRule (kind : Byte) (b : Bytes) : Bool :=
  let n := b.length
  match kind.toNat with
  | 0x0A => n = 0
  | 0x22 => n = 0
  | 0x2A => n = 0
  | 0x30 => n = 0
  | 0x08 => n = 1
  | 0x20 => n = 1
  | 0x21 => n = 1
  | 0x28 => n = 1
  | 0x03 => n = 2
  | 0x06 => n = 2
  | 0x13 => n = 2
  | 0x14 => n = 2
  | 0x31 => n = 3
  | 0x32 => n = 3
  | 0x33 => n = 3
  | 0x10 => n = 4
  | 0x15 => n = 4
  | 0x16 => n = 4
  | 0x29 => n = 4
  | 0x11 => n = 6
  | 0x05 => n = 9
  | 0x18 => n = 9
  | 0x07 => n = 13
  | 0x01 => n = 15
  | 0x12 => n = 19
  | 0x02 => 26 ≤ n && n = 26 + u8 b 25 && u8 b 25 ≤ 8
  | 0x04 => 4 ≤ n && n = 4 + u8 b 2 + 4 * u8 b 3 && u8 b 2 ≤ 3 && u8 b 3 ≤ 4
  | 0x17 => 5 ≤ n && n = 5 + u8 b 4
  | 0x09 => 3 ≤ n
  | _ => true

/-- The refusal codes (10.4). -/
def Code.refuses : Code → Bool
  | .done => false
  | .adjusted => false
  | .deferred => false
  | .unknownKind => true
  | .badLength => true
  | .badValue => true
  | .notFound => true
  | .tableFull => true
  | .fitRule => true
  | .eventClosed => true
  | .storeBusy => true
  | .lineHeld => true
  | .levelLower => true
  | .notInMuster => true
  | .storeFail => true
  | .inUse => true

/-- The frame being sent is the reply of a request. -/
def TxFrame.isReply : TxFrame → Bool
  | .reply _ => true
  | .report _ _ => false
  | .checkpointReply _ => false

/-- A state with the reply of its request made on a link. -/
def State.replied (s : State) (l : Link) (kind tag : Byte) (c : Code) (b : ReplyBody) : State :=
  { s with link := l.reply ⟨kind, tag, c, b⟩ }

/-! ### What an event leaves alone

Each of these blanks the parts of a panel's record that one kind of event may write, so that a claim can say that the
rest is as it was. -/

/-- A panel's record but for what a grant of its queue entry writes: the job fields, the line state and the next poll
(R92, R112). -/
def Panel.apartFromJob (p : Panel) : Panel :=
  { p with
    content := { p.content with jobClass := none, jobForced := false, jobPage := none }
    line := { p.line with state := .absent, nextPoll := none } }

/-- But also for its marks and the in-use set (R85, R88). -/
def Panel.apartFromMarks (p : Panel) : Panel :=
  { p.apartFromJob with content := { p.apartFromJob.content with inUse := .nil, dirty := .nil } }

/-- But also for the agenda and its slots (R52, R53). -/
def Panel.apartFromAgenda (p : Panel) : Panel :=
  { p.apartFromMarks with agendaSlots := [], content := { p.apartFromMarks.content with rows := [] } }

/-- But also for every other arrow slot (R67). -/
def Panel.apartFromRoutes (p : Panel) : Panel :=
  { p.apartFromAgenda with guideSlots := [], alertSlot := .empty }

/-- But also for the rotation and the rest level (R62, R131). -/
def Panel.apartFromLevel (p : Panel) : Panel :=
  { p.apartFromRoutes with
    content := { p.apartFromRoutes.content with rotation := none }
    line := { p.apartFromRoutes.line with rest := .active } }

/-- But for the agenda, the marks and the notice (R53, R57). -/
def Panel.apartFromNotice (p : Panel) : Panel :=
  { p.apartFromAgenda with content := { p.apartFromAgenda.content with notice := none } }

/-- A line unit but for what draw decisions and the arbiter write. -/
def LineUnit.apartFromArbiter (l : LineUnit) : LineUnit := { l with queue := [], exch := none, job := none, alert := none }

/-- The panels of two states agree, id by id, in what `f` keeps of a record. -/
def State.panelsAgree (t s : State) (f : Panel → Panel) : Prop :=
  ∀ id, (t.panels.look id).map f = (s.panels.look id).map f

/-- The same for every panel but one. -/
def State.othersAgree (t s : State) (id : Nat) (f : Panel → Panel) : Prop :=
  ∀ k, k ≠ id → (t.panels.look k).map f = (s.panels.look k).map f

/-- An entry is new, or its class has risen above the one it had in the queue `old`. -/
def Entry.joined (x : Entry) (old : List Entry) : Prop := ∀ e ∈ old, e.panel = x.panel → e.cls.rank < x.cls.rank

/-- What draw decisions make of the queue of a line, and all they make of it. Every entry stays. An entry that is not as
it was belongs to a panel that needs drawing and may be queued: a new one has its need class; one that was there has the
higher of its class and the need class; its force-full flag is set only by a forced draw. A new entry, and one whose
class has risen, stands behind every kept one of its class or higher (R91, R109). -/
def queueMade (look : Nat → Option Panel) (forced : Nat → Bool) (i : Fin 4) (old new : List Entry) : Prop :=
  (new.map (·.panel)).Nodup ∧ (new.filter (· ∈ old)).Sublist old ∧
    (∀ e ∈ old, ∃ x ∈ new, x.panel = e.panel) ∧
    (∀ x ∈ new, x ∉ old → ∃ q, look x.panel = some q ∧ q.needsDraw = true ∧ q.line.state.queueable = true ∧
      ((∀ e ∈ old, e.panel ≠ x.panel) → x = ⟨x.panel, q.needClass, forced x.panel⟩ ∧ lineOf x.panel = i) ∧
      ∀ e ∈ old, e.panel = x.panel → x.full = (e.full || forced x.panel) ∧
        (x.cls = e.cls ∨ e.cls.rank < q.needClass.rank ∧ x.cls = q.needClass)) ∧
    (classOrdered old → classOrdered new ∧
      new.Pairwise fun x y => x.joined old → y ∈ old → y.cls.rank < x.cls.rank)

/-- What the draw decisions of an event make of the lines: `u` after them and `s` before. An exchange, a job and a
pending alert stay; the queues are what the decisions make of them. -/
def State.entriesMade (u s : State) (forced : Nat → Bool) : Prop :=
  ∀ i, u.line i = { s.line i with queue := (u.line i).queue } ∧
    (s.panels.sorted = true → ((s.line i).queue.map (·.panel)).Nodup →
      queueMade u.panels.look forced i (s.line i).queue (u.line i).queue)

/-- The decisions were taken panel by panel in ascending order of id (R53, R101): of two entries that are new or have
risen, in one class, the lower id stands first. -/
def State.decidedInOrder (u s : State) : Prop :=
  s.panels.sorted = true → ∀ i, ((s.line i).queue.map (·.panel)).Nodup → classOrdered (s.line i).queue →
    (u.line i).queue.Pairwise fun x y =>
      x.joined (s.line i).queue → y.joined (s.line i).queue → x.cls = y.cls → x.panel < y.panel

/-- What a grant writes of a panel's record, but for its next poll, is as it was: the line state, the job class, the
forced flag and the job page (R92, R112). -/
def Panel.sameJob (q p : Panel) : Prop :=
  q.line.state = p.line.state ∧ q.content.jobClass = p.content.jobClass ∧
    q.content.jobForced = p.content.jobForced ∧ q.content.jobPage = p.content.jobPage

/-- The same of every panel declared before and after. -/
def State.jobsKept (u s : State) : Prop :=
  ∀ id p q, s.panels.look id = some p → u.panels.look id = some q → q.sameJob p

/-- Every panel declared before and after keeps its next poll. -/
def State.pollsKept (u s : State) : Prop :=
  ∀ id p q, s.panels.look id = some p → u.panels.look id = some q → q.line.nextPoll = p.line.nextPoll

/-- An event that takes draw decisions and nothing else of the lines' work: `u` is the state they leave, with every job,
line state and poll as it was, and the arbiter then picks on the lines that were given work (R110). -/
def State.linesForced (t s : State) (forced : Nat → Bool) : Prop :=
  ∃ u : State, t = u.settle s ∧ u.entriesMade s forced ∧ u.decidedInOrder s ∧ u.jobsKept s ∧ u.pollsKept s

/-- The same of an event without a forced draw. -/
def State.linesDecided (t s : State) : Prop := t.linesForced s fun _ => false

/-- The four lines but one are the same. -/
def State.otherLines (t s : State) (i : Fin 4) : Prop := ∀ j, j ≠ i → t.line j = s.line j

/-! ### What an event leaves marked (R54, R57, R64, R91) -/

/-- A panel stands in its line's queue, at its need class or above, or its entry has been granted at the end of the
event (R91, R92). `p` is the panel before the event and `q` after it. -/
def State.queued (t : State) (id : Nat) (p q : Panel) : Prop :=
  (∃ e ∈ (t.line (lineOf id)).queue, e.panel = id ∧ q.needClass.rank ≤ e.cls.rank) ∨
    (p.line.state = .live ∧ q.line.state = .serving)

/-- The higher of two mark classes, either of which may be none (R88). -/
def higherMark (a b : Option DrawClass) : Option DrawClass :=
  match a, b with
  | none, k => k
  | some o, none => some o
  | some o, some k => if o.rank < k.rank then some k else some o

/-- The class of the change of one GUIDE row, `old` before and `new` after: CONTENT for a row that is created or deleted
and for another destination or name phrase, ROUTE for an arrow or glyph alone (R64, R68). -/
def guideRowClass (old new : Option Slot) : Option DrawClass :=
  match old, new with
  | none, none => none
  | some x, some y =>
    if y.dest ≠ x.dest ∨ y.name ≠ x.name then some .content
    else if y.result ≠ x.result ∨ y.glyph ≠ x.glyph then some .route
    else none
  | _, _ => some .content

/-- The class with which a component is marked when an event has changed its content, `p` before it and `q` after it;
none when nothing of it changed. PLATE and NOTICE are marked CONTENT (R56, R57, R59; plate text and plate phrase by log
20), GUIDE with the highest class of its rows' changes (R64, R88), ALERT ALERT (R64), AGENDA ROUTE for arrows alone at a
change of the route epoch and CONTENT otherwise (R53, R54; log 18). -/
def changeClass (ev : AgendaEvent) (p q : Panel) : Comp → Option DrawClass
  | .plate =>
    if q.content.cabin.map (fun c => (c.occupant, c.dnd)) = p.content.cabin.map (fun c => (c.occupant, c.dnd)) ∧
      q.decl.plateText = p.decl.plateText ∧ q.decl.platePhrase = p.decl.platePhrase then none
    else some .content
  | .notice => if q.content.notice.map (·.phrase) = p.content.notice.map (·.phrase) then none else some .content
  | .agenda =>
    let bare := fun rs : List Row => rs.map fun r => { r with arrow := none, glyph := none }
    if q.content.rows = p.content.rows then none
    else if ev = .epoch ∧ bare q.content.rows = bare p.content.rows then some .route
    else some .content
  | .guide =>
    (List.range (max p.guideSlots.length q.guideSlots.length)).foldl
      (fun k n => higherMark k (guideRowClass p.guideSlots[n]? q.guideSlots[n]?)) none
  | .alert =>
    let x := q.alertSlot
    let y := p.alertSlot
    if x.name = y.name ∧ x.result = y.result ∧ x.glyph = y.glyph then none else some .alert

/-- What an event made of the marks and the queue entry of one panel, declared before and after it: each fitted
component keeps the higher of the class it had, the class of its change, and `extra`, the class with which the event
marks it in any case; and a panel that was marked, or whose V changed, and that then needs drawing and may be queued, has
its entry (R88, R91). -/
def State.decidedAt (t s : State) (ev : AgendaEvent) (id : Nat) (extra : Panel → Panel → Comp → Option DrawClass) :
    Prop :=
  ∀ p q, s.panels.look id = some p → t.panels.look id = some q →
    let cause := fun c => higherMark (changeClass ev p q c) (extra p q c)
    (∀ c, q.decl.fitted.has c = true → q.content.dirty.get c = higherMark (p.content.dirty.get c) (cause c)) ∧
    ((∃ c, q.decl.fitted.has c = true ∧ (cause c).isSome = true) ∨ q.visible ≠ p.visible → q.needsDraw = true →
      p.line.state.queueable = true → t.queued id p q)

/-- An event that marks a component only where its content changed. -/
def changesAlone : Panel → Panel → Comp → Option DrawClass := fun _ _ _ => none

/-- The same of every panel. -/
def State.decided (t s : State) (ev : AgendaEvent) : Prop := ∀ id, t.decidedAt s ev id changesAlone

/-- A changed cabin language marks every component in use, ALERT with class ALERT (R59). -/
def langClass (inUse : CompSet) (p q : Panel) (c : Comp) : Option DrawClass :=
  if p.content.cabin.map (·.lang) ≠ q.content.cabin.map (·.lang) ∧ inUse.has c = true then
    some (if c = .alert then .alert else .content)
  else none

/-- One panel's agenda after an event: chosen anew, with its slots, when the event is of R53; else as it was. -/
def State.agendaAfter (t s : State) (anew : Prop) (id : Nat) : Prop :=
  ∀ p q, s.panels.look id = some p → t.panels.look id = some q →
    (anew → q.agendaSlots = p.agendaSlotsNow s.routeEnv false (t.agendaEvents id p.decl) ∧
      (p.decl.fitted.agenda = true → q.content.rows = t.agendaRows id q)) ∧
    (¬ anew → q.agendaSlots = p.agendaSlots ∧ q.content.rows = p.content.rows)

/-- Every agenda chosen anew (R53), with the slots that serve its rows (R52). -/
def State.reagended (t s : State) : Prop := t.agendaLaw ∧ ∀ id, t.agendaAfter s True id

/-- Every slot of every panel has been computed afresh with what a computation then reads, towards the destinations of
its guide list, of its rows and of its station (R52, R67, R68), and every agenda holds what its slots say (R53). -/
def State.rerouted (t s : State) (e : RouteEnv) : Prop :=
  t.agendaLaw ∧ ∀ id p q, s.panels.look id = some p → t.panels.look id = some q →
    q.alertSlot = p.stationSlot e p.alertSlot ∧ q.guideSlots = (p.guideSlotsFor e p.guide p.guideSlots).1 ∧
      q.agendaSlots = p.agendaSlotsNow e true (t.agendaEvents id p.decl)

/-- The next poll of a panel after a change of the muster level that moves the rest ladder, `p` before it and `q` after
it: that of a LIVE screen is the earlier of its due time and U + the interval of the new level (8.2, R130, R131), and
any other stands. A LIVE panel may then have been granted (R110). -/
def pollAfterLevel (u : Nat) (p q : Panel) : Prop :=
  let interval := match q.line.rest with
    | .active => 1000
    | .rest1 => 2000
    | .rest2 => 4000
    | .rest3 => 8000
  (p.line.state = .live ∧ q.line.state = .serving ∧ q.line.nextPoll = none) ∨
    (q.line.state = p.line.state ∧ q.line.nextPoll =
      if p.line.state = .live ∧ p.decl.kind.isScreen = true then
        some (min (p.line.nextPoll.getD (u + interval)) (u + interval))
      else p.line.nextPoll)

/-! ### Declarations (R1, R7, R8) -/

/-- The declaration that a PANEL_DECLARE body gives, and its answer: the trim clamped to -16..+16, the radius to 255 and
30 when absent, AGENDA dropped on a screen without GUIDE; ADJUSTED, with fitted set, trim and radius, when one of them
moved, and DONE otherwise (R1, R8, 1.4). -/
def declTaken (b : Bytes) (kind : PanelKind) (d : Decl) (a : Code × ReplyBody) : Prop :=
  let bit := fun n : Nat => (b.getD 3 0).getLsbD n
  let asked : CompSet := ⟨bit 0, bit 1, bit 2, bit 3, bit 4⟩
  let trim : Int := max (-16) (min (s16 b 10) 16)
  let radius := if u16 b 12 = 65535 then 30 else min (u16 b 12) 255
  let placed := u8 b 4 ≠ 0xFF
  let fitted : CompSet := if kind ≠ .door ∧ bit 3 = false then { asked with agenda := false } else asked
  let moved := fitted ≠ asked ∨ placed ∧ (trim ≠ s16 b 10 ∨ 255 < u16 b 12 ∧ u16 b 12 ≠ 65535)
  d = {
    kind := kind
    fitted := fitted
    position := if placed then some { deck := u8 b 4, x := u16 b 5, y := s16 b 7, quadrant := u8 b 9, trim, radius }
      else none
    station := u8 b 14
    mask := b.getD 15 0
    venue := if u8 b 16 = 0xFF then none else some (u8 b 16)
    ownNode := if u8 b 17 = 0xFF then none else some (u8 b 17)
    langs := (List.range (u8 b 18)).map fun i => u8 b (19 + i)
    platePhrase := u16 b 23
    plateText := b.drop 26 } ∧
  a = if moved then
      (.adjusted, .declare fitted (if placed then some trim else none) (if placed then some radius else none))
    else (.done, .empty)

/-! ### A withdrawal at the muster unit (R117, R141, R145, R148) -/

/-- The slot that the withdrawal of an UPDATING door leaves held, by its release time (R117). -/
def Panel.heldOnWithdrawal (p : Panel) : List Nat :=
  match p.line.commitTime with
  | some c => if p.line.state = .updating ∧ p.decl.kind = .door then [c + 8000] else []
  | none => []

/-- A line without a panel that has been withdrawn: its entry is gone, an exchange and a job of it run on without it, and
the slot of an UPDATING door is held (R117, R126). -/
def LineUnit.withdrawn (l : LineUnit) (id : Nat) (p : Panel) : LineUnit :=
  { l with
    queue := l.queue.filter fun e => e.panel ≠ id
    exch := l.exch.map fun x => if x.panel = id then { x with orphan := true } else x
    job := l.job.map fun j => if j.panel = id then { j with orphan := true } else j
    held := l.held ++ p.heldOnWithdrawal }

/-- The state with a panel gone, its line's general alert due at once when that was its last panel in a drill or muster
(R148), and the muster unit told: of a change of the live set (R145), or by the test of R141 alone. -/
def State.toldWithout (s : State) (id : Nat) (p : Panel) (link : Link) : State :=
  let rest := s.panels.filter fun e => e.1 ≠ id
  let last : Bool := decide (s.muster.level = .drill ∨ s.muster.level = .muster) &&
    !rest.any fun e => decide (lineOf e.1 = lineOf id)
  let t : State :=
    { s with
      panels := rest
      muster := { s.muster with
        alertDue := if last then s.muster.alertDue.set (lineOf id) (some s.clock.u) else s.muster.alertDue }
      link := link }
  if p.line.state = .live ∨ p.line.state = .serving ∨ p.line.state = .updating then t.musterNotice else t.restoreTest

/-- The state with the lines of a withdrawal: the line of the panel without it, and the sweeps as the muster unit, told
of it, leaves them. -/
def State.linesWithout (s : State) (id : Nat) (p : Panel) (told : State) : State :=
  { s with lines := .build fun i =>
      if i = lineOf id then { (s.line i).withdrawn id p with sweepDue := (told.line i).sweepDue }
      else { s.line i with sweepDue := (told.line i).sweepDue } }

/-! ### Refusals in order (R2, R155) -/

/-- The first of a rule's checks, in its order, that fails gives this code. -/
def refusedBy (checks : List (Prop × Code)) (c : Code) : Prop :=
  ∃ a x b, checks = a ++ x :: b ∧ x.1 ∧ x.2 = c ∧ ∀ y ∈ a, ¬ y.1

/-! ### Pages (R94, R95) -/

/-- The section of a component that R94 lays down, in a language, with the first `n` agenda rows. -/
def State.sectionSays (s : State) (p : Panel) (lang n : Nat) : Comp → PageSection
  | .plate => .plate p.decl.plateText (s.phrase p.decl.platePhrase lang)
      (match p.content.cabin with
        | some ⟨some line, _, _⟩ => line
        | some ⟨none, _, _⟩ => []
        | none => [])
      (p.content.cabin.any (·.dnd))
  | .notice => .notice (match p.content.notice with
      | some x => s.phrase x.phrase lang
      | none => s.phrase 0 lang)
  | .agenda => .agenda ((p.content.rows.take n).map fun r =>
      { title := s.phrase r.title lang, venue := s.phrase r.venueName lang, hour := r.hour, minute := r.minute,
        mark := r.mark, arrow := r.arrow, glyph := r.glyph,
        help := if r.arrow = some .noRoute then some (s.phrase 1 lang) else none })
  | .guide => .guide (p.guideSlots.map fun g =>
      { name := s.phrase (g.name.getD 0) lang, result := g.result, glyph := g.glyph,
        help := if g.result = some .noRoute then some (s.phrase 1 lang) else none })
  | .alert => .alert (match s.dests.look p.decl.station with
        | some d => d.letter
        | none => none) p.alertSlot.result p.alertSlot.glyph
      ((if p.wantedLang = s.params.primaryLang then [s.params.primaryLang] else [s.params.primaryLang, p.wantedLang]).map
        fun l =>
          { station := s.phrase (p.alertSlot.name.getD 0) l,
            help := if p.alertSlot.result = some .noRoute then some (s.phrase 1 l) else none,
            instructions := [s.phrase 2 l, s.phrase 3 l, s.phrase 4 l, s.phrase 5 l] })

/-- A page is the one that R94 and R95 lay down for a panel, a job page and a carried set: one section for each carried
component in ascending order, with as many agenda rows as leave it within 1,024 bytes, and its own length in its
header. -/
def State.pageSays (s : State) (p : Panel) (j : JobPage) (carried : CompSet) (g : Page) : Prop :=
  let sections := fun n => carried.members.map (s.sectionSays p j.lang n)
  let size := fun n => 8 + ((sections n).map fun x => x.bytes.length).sum
  ∃ n, n ≤ p.content.rows.length ∧ (size n ≤ 1024 ∨ n = 0) ∧ (n = p.content.rows.length ∨ 1024 < size (n + 1)) ∧
    g = { visible := j.visible, carried := carried, banner := j.banner, lang := j.lang, full := j.full,
          length := size n, sections := sections n } ∧
    ∀ b, (g.bytes b).length = g.length

/-- What the agendas and the notices make of a clock notice (R53, R57), `t` after it and `s` before it: every agenda
evaluated, every expired notice removed, what changed marked and queued, nothing else of a panel's record written. -/
def State.noticed (t s : State) : Prop :=
  t.reagended s ∧ t.decided s .other ∧
  (∀ id, (t.panels.look id).map (·.content.notice) = (s.panels.look id).map fun p =>
    p.content.notice.filter fun n => !(n.expiry.any fun e => t.clock.m.any fun m => decide (e ≤ m))) ∧
  t.panelsAgree s Panel.apartFromNotice ∧ t.linesDecided s

/-! ### Panels' answers and timers -/

/-- The frame a panel sends from a drop, laid out as 12.3 and R169 say: start byte, address, type, length, payload,
CRC-16. -/
def panelFrame (drop type : Nat) (payload : Bytes) : Bytes :=
  let covered : Bytes :=
    BitVec.ofNat 8 (drop + 0x80) :: BitVec.ofNat 8 type :: BitVec.ofNat 8 (payload.length % 256) ::
      BitVec.ofNat 8 (payload.length / 256) :: payload
  0xC3 :: covered ++ [(crc16 covered).setWidth 8, (crc16 covered >>> 8).setWidth 8]

/-- The exchange in flight on a line is of a frame, with a panel of the line that is declared; `missed` says whether an
answer that is not good has come (R102). -/
def State.exchanging (s : State) (i : Fin 4) (f : LineFrame) (id : Nat) (p : Panel) (missed : Bool) : Prop :=
  lineOf id = i ∧ (s.line i).exch = some ⟨f, id, false, missed⟩ ∧ s.panels.look id = some p

/-- The exchange in flight on a line awaits the answer of a declared panel to a frame. -/
def State.awaiting (s : State) (i : Fin 4) (f : LineFrame) (id : Nat) (p : Panel) : Prop :=
  s.exchanging i f id p false

/-- The payloads that a good answer to a frame may carry (12.3, R171). -/
def LineFrame.takes : LineFrame → Bytes → Prop
  | .select _, p => p.length = 6 + u8 p 5 ∧ u8 p 5 ≤ 8
  | .page _ _, p => ∃ b : Byte, p = [b] ∧ b.toNat ≤ 2
  | .commit, p => p = []
  | .poll _, p => p.length = 4 + u8 p 3 ∧ u8 p 3 ≤ 8
  | .abort, p => p = []
  | .generalAlert _, _ => False

/-- A frame from a panel is a good answer of an exchange: whole, from the addressed drop, of the type called for, with
a payload of the length its type gives (R102, R171). -/
def Exchange.answeredBy (x : Exchange) (frame : Bytes) : Prop :=
  ∃ payload, frame = panelFrame (dropOf x.panel) (x.frame.type + 0x80) payload ∧ x.frame.takes payload

/-- The six answer rows, with a frame that comes on a line. -/
def answerRows (i : Fin 4) (frame : Bytes) : List Instr :=
  [.selectAnswer i frame, .pageAnswer i frame, .commitAck i frame, .abortAck i frame, .pollAnswer i frame,
    .probeAnswer i frame]

/-- The reports of a door's buttons, in order, from the DND flag it holds (R60). -/
def pressReports (m : Option Nat) (u id : Nat) : Bool → List Button → List Report
  | _, [] => []
  | d, .dnd :: bs => .guestRequest (if d then .dndOff else .dndOn) id .button m u :: pressReports m u id (!d) bs
  | d, .makeUp :: bs => .guestRequest .makeUp id .button m u :: pressReports m u id d bs

/-- A run time that an event may bring: already reached, or in the present second and not beyond the last (log 3). -/
def State.reachable (s : State) (d : Nat) : Prop :=
  d ≤ s.clock.u ∨ (d / 1000 = s.clock.u / 1000 ∧ d ≤ 4294967295000)

/-- The state with run time at a moment, when it lies ahead. -/
def State.atTime (s : State) (d : Nat) : State := { s with clock := { s.clock with u := max s.clock.u d } }

/-- A timer row: without a due time nothing happens; a due time that whole seconds still keep away is no event yet; and
one within the present second comes as if run time stood there (log 1, log 3). -/
def timerRow (c : Instr) (due : State → Option Nat) : Prop :=
  ∀ s : State, (due s = none → exec c s = .next s) ∧
    ∀ d, due s = some d →
      (¬ s.reachable d → exec c s = .next s) ∧ (s.reachable d → exec c s = exec c (s.atTime d))

/-! ### A raise (R137, R144, R146) -/

/-- The reports of a raise that takes effect, made on a link: MUSTER of kind LEVEL, then COVERAGE_COMPLETE when every
live panel already shows the banner of the level. -/
def State.raiseReports (s : State) (l : AlertLevel) (cause : LevelCause) (link : Link) : Link :=
  let entering := !s.muster.level.alarmed
  let epoch := if entering then (s.epoch + 1) % 4294967296 else s.epoch
  let saved := if entering then s.muster.mode else s.muster.saved
  let link1 := link.report (.musterLevel s.seconds s.muster.level l.level cause s.muster.drill.latch
    s.muster.general.latch s.muster.mode saved epoch)
  let live := liveCount s.panels
  if coveredCount s.panels l = live ∧ 0 < live then
    link1.report (.coverageComplete s.seconds l live live 0 (stateCount s.panels .fault) (stateCount s.panels .absent))
  else link1

/-- `t` is `s` after a raise to a level that takes effect (R137), but for the link: a raise from NORMAL or RESTORING has
every slot computed with lifts barred (R69), and each one marks ALERT and queues every panel that needs drawing. -/
def State.raised (t s : State) (l : AlertLevel) : Prop :=
  let entering : Bool := !s.muster.level.alarmed
  let live := liveCount s.panels
  let covered := coveredCount s.panels l
  t.muster = { s.muster with
    level := l.level
    saved := if entering then s.muster.mode else s.muster.saved
    alertDue := .build fun i => if ∃ e ∈ s.panels, lineOf e.1 = i then none else some s.clock.u
    coverage := some {
      level := l, start := s.clock.u, deadline := s.clock.u + 1000 * s.params.coverageDeadline, live := live
      covered := covered, complete := decide (covered = live ∧ 0 < live), short := false } } ∧
  t.epoch = (if entering then (s.epoch + 1) % 4294967296 else s.epoch) ∧
  (∀ id, (t.panels.look id).map Panel.apartFromLevel = (s.panels.look id).map Panel.apartFromLevel) ∧
  (∀ id p, t.panels.look id = some p → p.visible = .muster ∧ p.content.dirty.alert = some .alert ∧
    (entering → p.decl.kind.isScreen = true → p.line.rest = .active)) ∧
  (∀ id p q, s.panels.look id = some p → t.panels.look id = some q → q.content.rotation =
    if entering then p.content.rotation.map fun r => { r with due := none } else p.content.rotation) ∧
  (entering = true → t.rerouted s { s.routeEnv with barred := true }) ∧
  (entering = false → ∀ id p q, s.panels.look id = some p → t.panels.look id = some q →
    q.alertSlot = p.alertSlot ∧ q.guideSlots = p.guideSlots ∧ q.agendaSlots = p.agendaSlots ∧
      q.content.rows = p.content.rows ∧ (q.line.state = p.line.state → q.line.nextPoll = p.line.nextPoll)) ∧
  (entering = true → ∀ id p q, s.panels.look id = some p → t.panels.look id = some q →
    pollAfterLevel s.clock.u p q) ∧
  (∀ id, t.decidedAt s .epoch id fun _ _ c => if c = .alert then some .alert else none) ∧
  (∀ id p q, s.panels.look id = some p → t.panels.look id = some q → q.needsDraw = true →
    p.line.state.queueable = true → t.queued id p q) ∧
  (∃ u : State, t = u.settle s ∧ u.decidedInOrder s ∧ u.jobsKept s ∧
    u.entriesMade { s with lines := .build fun i => { s.line i with
      sweepDue := if s.muster.mode = .night ∧ s.muster.level = .normal then none else (s.line i).sweepDue } }
      fun _ => false) ∧
  t = { s with
    epoch := t.epoch
    panels := t.panels
    lines := t.lines
    muster := t.muster
    link := t.link }

/-! ### The arbiter (R110) -/

/-- The first entry of a line's queue that meets a test and whose panel is eligible: LIVE, and for a DOOR with a slot
free. -/
def State.eligibleFirst (s : State) (i : Fin 4) (test : Entry → Prop) (e : Entry) (p : Panel) : Prop :=
  let ok := fun q : Panel => q.line.state = .live ∧ (q.decl.kind = .door → (s.line i).slots < 4)
  ∃ a b, (s.line i).queue = a ++ e :: b ∧ test e ∧ s.panels.look e.panel = some p ∧ ok p ∧
    ∀ x ∈ a, test x → ∀ q, s.panels.look x.panel = some q → ¬ ok q

/-- No entry of a line's queue meets a test with an eligible panel. -/
def State.noneEligible (s : State) (i : Fin 4) (test : Entry → Prop) : Prop :=
  ∀ x ∈ (s.line i).queue, test x → ∀ q, s.panels.look x.panel = some q →
    ¬ (q.line.state = .live ∧ (q.decl.kind = .door → (s.line i).slots < 4))

/-- The panel of a line, in one of some line states, whose poll or probe is due earliest, the lower drop first. -/
def State.dueFirst (s : State) (i : Fin 4) (st : LineState → Prop) (id : Nat) (p : Panel) : Prop :=
  ∃ d, (id, p) ∈ s.panels ∧ lineOf id = i ∧ st p.line.state ∧ p.line.nextPoll = some d ∧ d ≤ s.clock.u ∧
    ∀ e ∈ s.panels, lineOf e.1 = i → st e.2.line.state → ∀ d', e.2.line.nextPoll = some d' → d' ≤ s.clock.u →
      d < d' ∨ (d = d' ∧ id ≤ e.1)

/-- No panel of a line in one of some line states is due. -/
def State.noneDue (s : State) (i : Fin 4) (st : LineState → Prop) : Prop :=
  ∀ e ∈ s.panels, lineOf e.1 = i → st e.2.line.state → ∀ d, e.2.line.nextPoll = some d → s.clock.u < d

end Sys2Proof.Machine
end

