-- ==== Sys2Proof/Certificates/Slice0/Obligations.lean ====
section
/-! DEFINITION. The statements for the provers, each from the rules of spec/ that its docstring and OBLIGATIONS.json
name. -/

open Sys2Proof Sys2Proof.Machine

/-! ### One step, and requests in general -/

/-- The command at the front of the queue is run on the state with the queue's rest. On an empty queue one millisecond
of run time passes; when it completes a second it is the advance, and at its last value run time holds. The
millisecond is the model's choice (log 3). -/
def Obligations.StepRunsFront : Prop :=
  (∀ (c : Instr) (rest : List Instr) (s : State), s.pending = c :: rest →
    step s = exec c { s with pending := rest }) ∧
  ∀ s : State, s.pending = [] →
    step s =
      if 4294967295000 ≤ s.clock.u then .next s
      else if (s.clock.u + 1) % 1000 = 0 then exec .advance s
      else .next { s with clock := { s.clock with u := s.clock.u + 1 } }

/-- Every command ends in a next state, and leaves the commands that wait as they are. That a command whose event cannot
happen (a timer not set, an answer nobody awaits, a request out of turn) answers next too is the model's choice (log 1).
-/
def Obligations.NoCommandStops : Prop :=
  ∀ (c : Instr) (s : State), ∃ t, exec c s = .next t ∧ t.pending = s.pending

/-- R155: a request is run only when no request runs and no reply waits; it is then the head of the receive queue, and
clear-to-send rises again when five frames are left. A request whose turn it is not, and one that arrives to an empty
queue, are the model's choice (log 1, log 2). -/
def Obligations.RequestTurn : Prop :=
  ∀ (c : Instr) (f : Frame) (s : State), c.frame = some f →
    ((s.link.running.isSome ∨ s.link.waiting.isSome) → exec c s = .next s) ∧
    (∀ g rest, s.link.running = none → s.link.waiting = none → s.link.queue = g :: rest →
      (g ≠ f → exec c s = .next s) ∧
      (g = f → s.link.take f = some { s.link with
        queue := rest, cts := if rest.length < 6 then true else s.link.cts, running := some f })) ∧
    (s.link.running = none → s.link.waiting = none → s.link.queue = [] →
      s.link.take f = some { s.link with running := some f })

/-- A body that breaks the length rule of its kind is answered BAD_LENGTH, and nothing else changes. While a
checkpoint is in flight, the requests that would change the kit, and a second CHECKPOINT, are refused with STORE_BUSY,
whatever their fields hold; of PHRASE_PUT, the ids 0..255 (id 0: log 32). A kind that is no request kind is answered
UNKNOWN_KIND, from 0x80 on in a reply of kind 0xFF. -/
def Obligations.RequestChecks : Prop :=
  ∀ (c : Instr) (f : Frame) (s : State) (l : Link), c.frame = some f → s.link.take f = some l →
    (lengthRule f.kind f.body = false →
      exec c s = .next (s.replied l (f.kind + 0x80) f.tag .badLength .empty)) ∧
    (lengthRule f.kind f.body = true → s.store.checkpoint.isSome →
      (f.kind ∈ ([0x01, 0x02, 0x03, 0x04, 0x05, 0x07, 0x08, 0x0A] : List Byte) ∨
        f.kind = 0x09 ∧ u16 f.body 0 ≤ 255) →
      exec c s = .next (s.replied l (f.kind + 0x80) f.tag .storeBusy .empty)) ∧
    (requestKind f.kind = false →
      exec c s = .next (s.replied l (if 0x80 ≤ f.kind.toNat then 0xFF else f.kind + 0x80) f.tag .unknownKind .empty))

/-- A request answered with a refusal code changes nothing but the link, whose reply carries the code alone. -/
def Obligations.RefusedChangesNothing : Prop :=
  ∀ (c : Instr) (f : Frame) (s t : State) (l : Link) (w : Stamped Reply), c.frame = some f → s.link.take f = some l →
    exec c s = .next t → t.link.waiting = some w → w.item.code.refuses = true →
    t = s.replied l w.item.kind f.tag w.item.code .empty ∧
      w.item.kind = if 0x80 ≤ f.kind.toNat then 0xFF else f.kind + 0x80

/-! ### The control link -/

/-- The receiver takes the bytes one at a time. A length outside 2..1026 ends the frame, and its two bytes are
examined afresh. A gap discards the frame begun and counts it; a hunting receiver has none. -/
def Obligations.LinkReceiver : Prop :=
  ∀ (b : Byte) (s : State), exec (.linkByteReceived b) s = .next { s with link := s.link.byte b } ∧
    (s.link.rx = .hunt → s.link.byte b = if b = 0xA5 then { s.link with rx := .length [] } else s.link) ∧
    (s.link.rx = .length [] → s.link.byte b = { s.link with rx := .length [b] }) ∧
    (∀ lo, s.link.rx = .length [lo] → s.link.byte b =
      if 2 ≤ lo.toNat + 256 * b.toNat ∧ lo.toNat + 256 * b.toNat ≤ 1026 then { s.link with rx := .frame lo b [] }
      else (({ s.link with rx := .hunt } : Link).byte lo).byte b) ∧
    (∀ lo hi got, s.link.rx = .frame lo hi got → got.length + 1 < lo.toNat + 256 * hi.toNat + 2 →
      s.link.byte b = { s.link with rx := .frame lo hi (got ++ [b]) }) ∧
    (s.link.rx = .hunt → exec .linkGapTimeout s = .next s) ∧
    (s.link.rx ≠ .hunt → exec .linkGapTimeout s =
      .next { s with link := { s.link with rx := .hunt, gapCount := min (s.link.gapCount + 1) 65535 } })

/-- A frame as 12.2 lays it out, taken by a hunting receiver, is judged by its CRC-16: a good one joins the receive
queue as the request it spells, or is counted when the queue holds 8; a bad one is counted. That the bytes are fed one by
one and that the receiver hunts again at once after either is read from R152 (log 13, log 33). What the controller sends
is laid out alike: a report with tag 0, its kind, a header of the lost flag and its own kind, the two kinds those that 12.2
gives it; a reply with the request's tag and its result code first (the own kind of CLOCK and KIT, for which
12.2 has none, and the bytes of some fields are free values, log 39; an IDENT view carries the panel id once, log 44). -/
def Obligations.LinkFrame : Prop :=
  (∀ (s : State) (x : TxFrame), s.link.tx = some x → ∃ (kind tag : Byte) (body : Bytes),
    let n := body.length + 2
    let covered : Bytes := BitVec.ofNat 8 (n % 256) :: BitVec.ofNat 8 (n / 256) :: kind :: tag :: body
    s.linkOut = some (0xA5 :: covered ++ [(crc16 covered).setWidth 8, (crc16 covered >>> 8).setWidth 8]) ∧
    (∀ lost r, x = .report lost r → tag = 0 ∧ ∃ own : Byte, body = (if lost then 1 else 0) :: own :: r.fields ∧
      (match r with
        | .panelState _ k _ _ _ => kind = 0x60 ∧ (k, own) ∈ ([(.joined, 0), (.recovered, 1), (.fault, 2)] : List _)
        | .guestRequest k _ _ _ _ => kind = 0x61 ∧ (k, own) ∈ ([(.dndOn, 0), (.dndOff, 1), (.makeUp, 2)] : List _)
        | .eventState k _ _ _ _ _ _ _ =>
          kind = 0x62 ∧ (k, own) ∈ ([(.advanced, 0), (.skipped, 1), (.removed, 2)] : List _)
        | .clock _ _ _ _ _ _ => kind = 0x63
        | .musterInput _ _ _ _ _ => kind = 0x64 ∧ own = 0
        | .musterLevel _ _ _ _ _ _ _ _ _ => kind = 0x64 ∧ own = 1
        | .coverageComplete _ _ _ _ _ _ _ => kind = 0x64 ∧ own = 2
        | .coverageShort _ _ _ _ _ _ _ _ => kind = 0x64 ∧ own = 3
        | .restoreDone _ _ => kind = 0x64 ∧ own = 4
        | .kit _ _ _ _ _ _ => kind = 0x65)) ∧
    ∀ r, x = .reply r ∨ x = .checkpointReply r → kind = r.kind ∧ tag = r.tag ∧
      ∃ c : Nat, (c, r.code) ∈ ([(0, .done), (1, .adjusted), (2, .deferred), (16, .unknownKind), (17, .badLength),
          (18, .badValue), (19, .notFound), (20, .tableFull), (21, .fitRule), (22, .eventClosed), (23, .storeBusy),
          (24, .lineHeld), (25, .levelLower), (26, .notInMuster), (27, .storeFail), (28, .inUse)] : List (Nat × Code)) ∧
        body = BitVec.ofNat 8 c :: r.body.bytes r.kind ∧ (r.body = .empty → body.length = 1)) ∧
  ∀ (kind tag : Byte) (body check : Bytes) (s : State), s.link.rx = .hunt → body.length ≤ 1024 → check.length = 2 →
    let n := body.length + 2
    let covered : Bytes := BitVec.ofNat 8 (n % 256) :: BitVec.ofNat 8 (n / 256) :: kind :: tag :: body
    exec (.linkFrameReceived (0xA5 :: covered ++ check)) s = .next { s with link :=
      if check = [(crc16 covered).setWidth 8, (crc16 covered >>> 8).setWidth 8] then
        if s.link.queue.length < 8 then
          { s.link with
            queue := s.link.queue ++ [⟨kind, tag, body⟩]
            cts := if 6 ≤ s.link.queue.length + 1 then false else s.link.cts }
        else { s.link with overflowCount := min (s.link.overflowCount + 1) 65535 }
      else { s.link with crcCount := min (s.link.crcCount + 1) 65535 } }

/-- The transmitter, its frame sent, begins the frame created earliest among the head of the report queue, the waiting
reply and the head of the late checkpoint replies; a reply that has been sent waits no longer. That it waits until then,
and that several late replies may wait in order, is read from R155 and R157 (log 9, log 12); without a frame being sent
nothing happens (log 1). -/
def Obligations.FrameSent : Prop :=
  (∀ s : State, s.link.tx = none → exec .linkFrameSent s = .next s) ∧
  ∀ (s : State) (x : TxFrame), s.link.tx = some x →
    let l : Link := { s.link with tx := none, waiting := if x.isReply then none else s.link.waiting }
    (l.reports = [] → l.waiting = none → l.lateReplies = [] → exec .linkFrameSent s = .next { s with link := l }) ∧
    (∀ r rest, l.reports = r :: rest → (∀ w, l.waiting = some w → r.stamp < w.stamp) →
      (∀ q, l.lateReplies.head? = some q → r.stamp < q.stamp) →
      exec .linkFrameSent s = .next { s with link := { l with
        reports := rest, tx := some (.report l.lost r.item), lost := false } }) ∧
    (∀ w, l.waiting = some w → (∀ r, l.reports.head? = some r → w.stamp < r.stamp) →
      (∀ q, l.lateReplies.head? = some q → w.stamp < q.stamp) →
      exec .linkFrameSent s = .next { s with link := { l with tx := some (.reply w.item) } }) ∧
    ∀ q rest, l.lateReplies = q :: rest → (∀ r, l.reports.head? = some r → q.stamp < r.stamp) →
      (∀ w, l.waiting = some w → q.stamp < w.stamp) →
      exec .linkFrameSent s = .next { s with link := { l with
        lateReplies := rest, tx := some (.checkpointReply q.item) } }

/-- R159: the report queue holds up to 64 reports. A report that finds it full is discarded; a MUSTER report removes
the oldest report of another kind, or the oldest of all. The lost flag goes with the next report begun, never with a
reply. -/
def Obligations.ReportQueue : Prop :=
  ∀ (l : Link) (r : Stamped Report),
    (l.reports.length < 64 → l.enqueue r = { l with reports := l.reports ++ [r] }) ∧
    (l.reports.length = 64 → r.item.isMuster = false → l.enqueue r = { l with lost := true }) ∧
    (∀ a x b, l.reports.length = 64 → r.item.isMuster = true → l.reports = a ++ x :: b →
      (∀ y ∈ a, y.item.isMuster = true) → x.item.isMuster = false →
      l.enqueue r = { l with reports := a ++ b ++ [r], lost := true }) ∧
    (∀ x b, l.reports.length = 64 → r.item.isMuster = true → l.reports = x :: b →
      (∀ y ∈ l.reports, y.item.isMuster = true) → l.enqueue r = { l with reports := b ++ [r], lost := true }) ∧
    (∀ x b, l.tx = none → l.next = some (.report x b) →
      l.pump = { l with reports := b, tx := some (.report l.lost x.item), lost := false }) ∧
    ∀ w, l.tx = none → l.next = some (.waiting w) → l.pump.lost = l.lost ∧ l.pump.reports = l.reports

/-! ### The kit store -/

/-- An accepted CHECKPOINT takes its snapshot, begins ERASE, keeps the tag and gets no reply at its run; the image is not
valid from then on, and one already erased stays erased (log 8). The stages follow one another: a finished ERASE leaves
the image erased, a finished WRITE holds the snapshot and its CRC-32, low byte first. A good VERIFY makes it valid, ends
FAULT and answers DONE; anything else leaves it invalid, asserts FAULT and answers STORE_FAIL, with the kept tag. The
bytes of the image are the commands' own (log 7). -/
def Obligations.CheckpointStages : Prop :=
  (∀ (tag : Byte) (s : State) (l : Link), s.link.take ⟨0x0A, tag, []⟩ = some l → s.store.checkpoint = none →
    exec (.checkpoint tag []) s = .next { s with
      store := { s.store with
        image := if s.store.image = .erased then .erased else .bad
        checkpoint := some ⟨s.kit, .erase⟩ }
      link := { l with running := none, checkpointTag := some tag } }) ∧
  ∀ (s : State) (k : Kit) (tag : Byte), s.link.checkpointTag = some tag →
    let failed := fun i : Image => ({ s with
      store := { s.store with image := i, checkpoint := none, fault := true }
      link := s.link.lateReply ⟨0x8A, tag, .storeFail, .empty⟩ } : State)
    let stored := fun image : Bytes => [(crc32 image).setWidth 8, (crc32 image >>> 8).setWidth 8,
      (crc32 image >>> 16).setWidth 8, (crc32 image >>> 24).setWidth 8]
    (s.store.checkpoint = some ⟨k, .erase⟩ →
      exec (.eraseEnd true) s = .next { s with
        store := { s.store with image := .erased, checkpoint := some ⟨k, .write⟩ } } ∧
      exec (.eraseEnd false) s = .next (failed (if s.store.image = .erased then .erased else .bad))) ∧
    (s.store.checkpoint = some ⟨k, .write⟩ → ∀ image : Bytes,
      exec (.writeEnd true image) s = .next { s with
        store := { s.store with image := .written k (stored image), checkpoint := some ⟨k, .verify⟩ } } ∧
      exec (.writeEnd false image) s = .next (failed .bad)) ∧
    ∀ (readBack crc : Bytes) (kit : Kit), s.store.checkpoint = some ⟨k, .verify⟩ →
      s.store.image = .written kit crc →
      exec (.checkpointComplete readBack) s = .next
        (if stored readBack = crc then { s with
          store := { s.store with checkpoint := none, fault := false }
          link := s.link.lateReply ⟨0x8A, tag, .done, .empty⟩ }
        else failed .bad)

/-- Start-up. With an image that is not valid: every volatile state at its start value, no tables, FAULT asserted, and
the KIT report, first of all, already on its way (log 10), with reason EMPTY for an erased image and CHECK for one
written in part or failing its CRC-32; within WRITE the image is erased when nothing reads back, else written in part
(log 8). With a valid image, whose read-back has the stored CRC-32 (log 7): the zone tables take the stored kit, every
node at its default state, each panel comes into being ABSENT, its slots computed, its first probe due at once and
every component it shows DIRTY with class CONTENT, no job class, FAULT is deasserted, the muster unit is at its start
values and the KIT report carries the counts. The computation of the slots marks nothing (log 21), and the arbiter
makes no pick for the probes that are due at once (log 16): both are the model's reading. -/
def Obligations.StartUp : Prop :=
  let stored := fun image : Bytes => [(crc32 image).setWidth 8, (crc32 image >>> 8).setWidth 8,
    (crc32 image >>> 16).setWidth 8, (crc32 image >>> 24).setWidth 8]
  let writing := fun s : State => decide (s.store.checkpoint.map (·.stage) = some .write)
  let input := fun raw : Bool =>
    ({ raw := raw, reading := false, debounce := if raw then some 0 else none, latch := false } : AlarmIn)
  (∀ (rate drill general : Bool) (readBack : Bytes) (s : State),
    (writing s = true ∨ ∀ k crc, s.store.image = .written k crc → stored readBack ≠ crc) →
    let erased := if writing s then decide (readBack = []) else decide (s.store.image = .erased)
    exec (.startUp rate drill general readBack) s = .next { State.reset with
      muster := { State.reset.muster with drill := input drill, general := input general }
      link := { State.reset.link with
        rateHigh := rate
        tx := some (.report false (.kit .invalid 0 0 0 0 (some (if erased then .empty else .check)))) }
      store := {
        image := if erased then .erased else .bad
        kitState := .invalid, checkpoint := none, fault := true }
      pending := s.pending }) ∧
  ∀ (rate drill general : Bool) (readBack : Bytes) (k : Kit) (s : State),
    writing s = false → s.store.image = .written k (stored readBack) →
    ∃ t, exec (.startUp rate drill general readBack) s = .next t ∧
      t.params = k.params ∧ t.dests = k.dests ∧ t.phrases = k.phrases ∧
      (∀ i, t.nodes.look i = (k.nodes.look i).map fun n => ⟨n, n.initial⟩) ∧
      (∀ id, (t.panels.look id).map (fun p => (⟨p.decl, p.guide, p.pins⟩ : KitPanel)) = k.panels.look id) ∧
      (∀ id p, t.panels.look id = some p →
        p.line = {
          state := .absent, reason := none, miss := 0, nextPoll := some 0, partialCount := 16, lastFull := none,
          commitTime := none, deadline := none, lastBusy := none, rest := .active, ambient := 5,
          lastPresence := none, origin := 0, brightness := none } ∧
        p.content.inUse = ⟨true, false, false, !p.guide.isEmpty, false⟩ ∧ p.firstDirty ∧
        p.content.jobClass = none ∧ p.content.jobForced = false ∧
        p.content.inFlight = .nil ∧ p.content.jobPage = none ∧ p.content.rows = [] ∧ p.content.notice = none ∧
        p.content.shown = ⟨.nil, none, none, .nil⟩ ∧
        p.content.cabin = (if p.decl.kind = .door then some ⟨none, k.params.primaryLang, false⟩ else none) ∧
        p.content.rotation = (if p.decl.kind = .door then none else some ⟨0, some (1000 * k.params.dwell)⟩) ∧
        p.guideSlots = p.guide.map (fun d => p.guideSlot t.routeEnv d .empty) ∧
        p.alertSlot = p.stationSlot t.routeEnv .empty ∧
        p.agendaSlots = if p.decl.hasAgendaSlots then List.replicate 4 .empty else []) ∧
      t.muster = { State.reset.muster with drill := input drill, general := input general } ∧
      t.clock = State.reset.clock ∧ t.events = [] ∧ t.bookings = [] ∧ t.epoch = 0 ∧ t.lines = State.reset.lines ∧
      t.store = { image := s.store.image, kitState := .loaded, checkpoint := none, fault := false } ∧
      t.pending = s.pending ∧
      t.link = { State.reset.link with
        rateHigh := rate
        tx := some (.report false
          (.kit .loaded k.panels.length k.nodes.length k.dests.length k.phrases.length none)) }

/-- R29: the clock at each reset; start-up creates no CLOCK report. -/
def Obligations.ClockAtResets : Prop :=
  ∀ s : State,
    (∀ rate drill general readBack, ∃ t, exec (.startUp rate drill general readBack) s = .next t ∧
      t.clock = { u := 0, r := 0, set := false, offset := 0, change := none, m := none } ∧
      (∀ x ∈ t.link.reports, ∀ c r o n m f, x.item ≠ .clock c r o n m f) ∧
      ∀ b c r o n m f, t.link.tx ≠ some (.report b (.clock c r o n m f))) ∧
    (∀ tag body, ∃ t, exec (.restart tag body) s = .next t ∧ t.clock = s.clock) ∧
    (∀ tag body, ∃ t, exec (.lineReset tag body) s = .next t ∧ t.clock = s.clock) ∧
    ∀ tag body, ∃ t, exec (.checkpoint tag body) s = .next t ∧ t.clock = s.clock

/-- RESTART empties the programme, the notices and the report queue, sets every cabin part blank, marks what changed,
and keeps the zone tables, the clock, the epoch, the muster and the kit store. A draw decision is taken for every panel
in ascending id: every one that needs drawing is queued, marked or not; every entry that was there stays, and every
job, line state and poll, until the arbiter picks on the idle lines that got an entry, once, at the end of the event:
the model's reading (log 16). -/
def Obligations.RestartTaken : Prop :=
  ∀ (tag : Byte) (s : State) (l : Link), s.link.take ⟨0x2A, tag, []⟩ = some l →
    ∃ t, exec (.restart tag []) s = .next t ∧
      t = { s with
        events := []
        bookings := []
        panels := t.panels
        lines := t.lines
        link := ({ l with reports := [], lost := l.lost || !l.reports.isEmpty } : Link).reply
          ⟨0xAA, tag, .done, .empty⟩ } ∧
      t.linesDecided s ∧ t.reagended s ∧
      (∀ id, t.decidedAt s .other id fun p q => langClass q.content.inUse p q) ∧
      (∀ id p q, s.panels.look id = some p → t.panels.look id = some q → q.needsDraw = true →
        p.line.state.queueable = true → t.queued id p q) ∧
      (t.panelsAgree s fun p =>
        { p.apartFromNotice with content := { p.apartFromNotice.content with cabin := none } }) ∧
      ∀ id p, t.panels.look id = some p →
        p.content.notice = none ∧ (p.decl.fitted.agenda = true → p.content.rows = []) ∧
        (∀ c, p.content.cabin = some c → c = { occupant := none, lang := s.params.primaryLang, dnd := false })

/-! ### The zone tables -/

/-- R4: ZONE_SET refuses a wrong primary language or sweep order; otherwise it brings each clamped parameter into its
range and replaces the record as a whole, answering ADJUSTED with the seven taken values when one of them moved. -/
def Obligations.ZoneSet : Prop :=
  ∀ (tag : Byte) (body : Bytes) (s : State) (l : Link), s.link.take ⟨0x01, tag, body⟩ = some l → body.length = 15 →
    s.store.checkpoint = none →
    let h := min (u8 body 2) 8
    let run := max 10 (min (u16 body 3) 600)
    let rest1 := max 10 (min (u16 body 5) 3600)
    let rest2 := max 60 (min (u16 body 7) 14400)
    let dwell := max 5 (min (u8 body 9) 60)
    let sweep := max 10 (min (u16 body 10) 600)
    let deadline := max 10 (min (u16 body 13) 300)
    exec (.zoneSet tag body) s = .next
      (if u8 body 1 ≤ 7 ∧ u8 body 12 ≤ 1 then
        { s with
          params := {
            zone := u8 body 0
            primaryLang := u8 body 1
            hysteresis := h
            runTime := run
            rest1 := rest1
            rest2 := rest2
            dwell := dwell
            sweepInterval := sweep
            sweepOrder := if u8 body 12 = 0 then .sequential else .interleaved
            coverageDeadline := deadline }
          link := l.reply
            (if h = u8 body 2 ∧ run = u16 body 3 ∧ rest1 = u16 body 5 ∧ rest2 = u16 body 7 ∧ dwell = u8 body 9 ∧
                sweep = u16 body 10 ∧ deadline = u16 body 13 then ⟨0x81, tag, .done, .empty⟩
              else ⟨0x81, tag, .adjusted, .zone h run rest1 rest2 dwell sweep deadline⟩) }
      else s.replied l 0x81 tag .badValue .empty)

/-- PANEL_DECLARE is refused by the first check of R7 that fails, in its order; a venue index of 128..254 is NOT_FOUND
(log 34). A first declaration that passes them all is taken with its trim and radius clamped and its fitted set
adjusted, and answered ADJUSTED with what was taken when one of them moved: the panel begins ABSENT with an empty guide
list and no pins, its slots computed without a previous arrow, its content record at its creation values (R100) with
its agenda evaluated, every component of V DIRTY with class CONTENT and ALERT with class ALERT, AGENDA also where its
first evaluation gives rows outside V; nothing of another panel changes, no epoch is bumped, and the line has no
general alert due or pending. The computation of the slots marks nothing (log 21), and the arbiter makes no pick for
the probe that is due at once (log 16): both are the model's reading. -/
def Obligations.PanelDeclareNew : Prop :=
  (∀ (tag : Byte) (body : Bytes) (s : State) (l : Link), s.link.take ⟨0x02, tag, body⟩ = some l →
    body.length = 26 + u8 body 25 → u8 body 25 ≤ 8 → s.store.checkpoint = none →
    let kind := u8 body 2
    let door := kind = 0
    let deck := u8 body 4
    let langs := (List.range (u8 body 18)).map fun i => u8 body (19 + i)
    let venue := u8 body 16
    let node := u8 body 17
    let has := fun n : Nat => (body.getD 3 0).getLsbD n = true
    let checks : List (Prop × Code) := [
      (255 < u16 body 0, .badValue),
      (3 < kind, .badValue),
      (deck ≠ 0xFF ∧ ¬ (1 ≤ deck ∧ deck ≤ 24 ∧ u16 body 5 ≤ 4095 ∧ -400 ≤ s16 body 7 ∧ s16 body 7 ≤ 400 ∧
        u8 body 9 ≤ 3), .badValue),
      (127 < u8 body 14 ∨ s.dests.look (u8 body 14) = none, .notFound),
      (∃ d, s.dests.look (u8 body 14) = some d ∧ d.kind ≠ .station, .badValue),
      (door ∧ (u8 body 15 ≠ 0 ∨ u8 body 18 ≠ 0), .badValue),
      (¬ door ∧ (u8 body 18 = 0 ∨ 4 < u8 body 18 ∨ (∃ x ∈ langs, 7 < x) ∨ ¬ langs.Nodup), .badValue),
      (¬ (kind = 3 ↔ venue ≠ 0xFF), .badValue),
      (venue ≠ 0xFF ∧ (127 < venue ∨ s.dests.look venue = none), .notFound),
      (venue ≠ 0xFF ∧ ∃ d, s.dests.look venue = some d ∧ d.kind ≠ .venue, .badValue),
      (node ≠ 0xFF ∧ (kind ≠ 2 ∨ deck = 0xFF), .badValue),
      (node ≠ 0xFF ∧ (31 < node ∨ s.nodes.look node = none), .notFound),
      (node ≠ 0xFF ∧ ∃ x, s.nodes.look node = some x ∧
        ¬ (x.spec.kind ≠ .zoneDoor ∧ x.spec.deckLo ≤ deck ∧ deck ≤ x.spec.deckHi), .badValue),
      (4095 < u16 body 23 ∨ ∃ x ∈ body.drop 26, ¬ (0x20 ≤ x.toNat ∧ x.toNat ≤ 0x7E), .badValue),
      (¬ (has 0 ∧ has 4) ∨ has 3 ∧ deck = 0xFF, .fitRule)]
    (∀ c, refusedBy checks c → exec (.panelDeclare tag body) s = .next (s.replied l 0x82 tag c .empty)) ∧
    ((∀ x ∈ checks, ¬ x.1) → ∃ kind, panelKindOf (u8 body 2) = some kind ∧
      firstRefusal (s.declareChecks body kind) = none)) ∧
  ∀ (tag : Byte) (body : Bytes) (kind : PanelKind) (s : State) (l : Link),
    s.link.take ⟨0x02, tag, body⟩ = some l → body.length = 26 + u8 body 25 → u8 body 25 ≤ 8 →
    s.store.checkpoint = none → u16 body 0 ≤ 255 → panelKindOf (u8 body 2) = some kind →
    firstRefusal (s.declareChecks body kind) = none → s.panels.look (u16 body 0) = none →
    let id := u16 body 0
    let d := declOf body kind
    declTaken body kind d (declAnswer body d) ∧ ∃ t p, exec (.panelDeclare tag body) s = .next t ∧ t.panels.look id = some p ∧
      p.decl = d ∧ p.guide = [] ∧ p.pins = [] ∧ p.guideSlots = [] ∧
      p.alertSlot = p.stationSlot s.routeEnv .empty ∧
      p.agendaSlots = ({ p with agendaSlots := [] } : Panel).agendaSlotsNow s.routeEnv false (s.agendaEvents id d) ∧
      p.line = {
        state := .absent, reason := none, miss := 0, nextPoll := some s.clock.u, partialCount := 16, lastFull := none,
        commitTime := none, deadline := none, lastBusy := none, rest := .active, ambient := 5, lastPresence := none,
        origin := s.clock.u, brightness := none } ∧
      p.content.inFlight = .nil ∧ p.content.jobPage = none ∧ p.content.shown = ⟨.nil, none, none, .nil⟩ ∧
      p.content.inUse = ⟨true, false, s.clock.set && !p.content.rows.isEmpty, false, s.muster.level.alarmed⟩ ∧
      p.firstDirty ∧ p.content.jobClass = none ∧ p.content.jobForced = false ∧
      p.content.notice = none ∧
      p.content.cabin = (if kind = .door then some ⟨none, s.params.primaryLang, false⟩ else none) ∧
      p.content.rotation = (if kind = .door then none else some ⟨0, some (s.clock.u + 1000 * s.params.dwell)⟩) ∧
      p.content.rows = (if d.fitted.agenda then s.agendaRows id p else []) ∧
      (∀ k, k ≠ id → t.panels.look k = s.panels.look k) ∧
      t = { s with
        panels := t.panels
        lines := s.lines.modify (lineOf id) fun x => { x with alert := none }
        muster := { s.muster with alertDue := s.muster.alertDue.set (lineOf id) none }
        link := l.reply ⟨0x82, tag, (declAnswer body d).1, (declAnswer body d).2⟩ }

/-- A declaration of the same kind replaces the declaration and keeps the panel's cabin part, bookings, line part and
job; its pins and guide list go when GUIDE leaves the fitted set, its notice when NOTICE does; its slots are computed
against the tables of the moment, its agenda evaluated, what changed is marked, a component that leaves the fitted set
leaves the DIRTY set (R89), the in-use set is that of R85, and the panel is queued if it needs drawing. A declaration
of another kind withdraws the panel first, with its bookings, queue entry, exchange and job, its UPDATING slot held,
and the muster unit told; the panel then begins again as at a first declaration, with the DIRTY set of a new record
(R100; the computation of its slots marks nothing, log 21). A screen so declared during a drill or muster has a
rotation step due, which is not taken until rotation resumes: the model's reading (log 30). That a changed plate text
or plate phrase marks PLATE is the model's reading too (log 20), and so is the class CONTENT of an agenda mark where
only arrows differ (R53 followed against R54 and 6.3, log 18). A job page keeps which components have left the fitted
set since its composition (R89, R97). Other panels' entries, jobs, line states and polls stay, until the arbiter picks
on the idle lines that got an entry, once, at the end of the event: the model's reading (log 16). -/
def Obligations.PanelDeclareAgain : Prop :=
  ∀ (tag : Byte) (body : Bytes) (kind : PanelKind) (s : State) (l : Link) (p : Panel),
    s.link.take ⟨0x02, tag, body⟩ = some l → body.length = 26 + u8 body 25 → u8 body 25 ≤ 8 →
    s.store.checkpoint = none → u16 body 0 ≤ 255 → panelKindOf (u8 body 2) = some kind →
    firstRefusal (s.declareChecks body kind) = none → s.panels.look (u16 body 0) = some p →
    let id := u16 body 0
    let d := declOf body kind
    let rotated := fun (q : Panel) (c : Comp) => p.decl.langs ≠ d.langs &&
      p.content.rotation.any (fun r => p.decl.langs.getD r.index 0 ≠ d.langs.getD 0 0) &&
      match c with
      | .plate => true
      | .notice => !s.muster.level.alarmed && d.fitted.notice && q.content.notice.isSome
      | .agenda => !s.muster.level.alarmed && d.fitted.agenda && s.clock.set && !p.content.rows.isEmpty
      | .guide => !s.muster.level.alarmed && d.fitted.guide && !q.guide.isEmpty
      | .alert => s.muster.level.alarmed
    declTaken body kind d (declAnswer body d) ∧
    (p.decl.kind = kind → ∃ t q, exec (.panelDeclare tag body) s = .next t ∧ t.panels.look id = some q ∧
      q.decl = d ∧ q.guide = (if d.fitted.guide then p.guide else []) ∧
      q.pins = (if d.fitted.guide then p.pins else []) ∧
      q.content.cabin = p.content.cabin ∧ q.content.inFlight = p.content.inFlight ∧
      q.content.notice = (if d.fitted.notice then p.content.notice else none) ∧
      q.content.shown =
        { p.content.shown with set := p.content.shown.set.diff (p.decl.fitted.diff d.fitted) } ∧
      (p.decl.langs = d.langs → q.content.rotation = p.content.rotation) ∧
      q.alertSlot.dest = some d.station ∧ q.guideSlots.map (·.dest) = q.guide.map some ∧
      q.alertSlot = q.stationSlot s.routeEnv p.alertSlot ∧
      q.guideSlots =
        (q.guideSlotsFor s.routeEnv q.guide (if d.fitted.guide then p.guideSlots else [])).1 ∧
      q.agendaSlots = ({ q with agendaSlots := if d.hasAgendaSlots ∧ p.decl.hasAgendaSlots then p.agendaSlots else [] } :
        Panel).agendaSlotsNow s.routeEnv true (s.agendaEvents id d) ∧
      q.content.rows = (if d.fitted.agenda then s.agendaRows id q else []) ∧
      (p.decl.langs ≠ d.langs → p.content.rotation.isSome → q.content.rotation =
        some ⟨0, if s.muster.level.alarmed then none else some (s.clock.u + 1000 * s.params.dwell)⟩) ∧
      (t.decidedAt s .other id fun _ _ c =>
        if p.decl.fitted.has c = false ∨
            c = .plate ∧ (p.content.shown.set.inter (p.decl.fitted.diff d.fitted)) ≠ .nil then some .content
        else if rotated q c then some .rotation else none) ∧
      (∀ c, p.decl.fitted.has c = true → d.fitted.has c = false → q.content.dirty.get c = none) ∧
      q.inUseOk s.muster.level s.clock.set ∧
      (q.needsDraw = true → p.line.state.queueable = true → t.queued id p q) ∧
      { q.line with state := .absent, nextPoll := none } = { p.line with state := .absent, nextPoll := none } ∧
      t.othersAgree s id Panel.apartFromJob ∧
      (∃ (u : State) (r : Panel), t = u.settle s ∧ u.panels.look id = some r ∧
        r.sameJob { p with content := { p.content with jobPage := p.content.jobPage.map fun j =>
          { j with removed := j.removed.union (p.decl.fitted.diff d.fitted) } } } ∧
        u.jobsKept { s with panels := s.panels.filter fun e => e.1 ≠ id } ∧ u.pollsKept s ∧
        u.entriesMade { s with lines := s.lines.modify (lineOf id) fun x => { x with alert := none } } fun _ => false) ∧
      t = { s with
        panels := t.panels
        lines := t.lines
        muster := { s.muster with alertDue := s.muster.alertDue.set (lineOf id) none }
        link := l.reply ⟨0x82, tag, (declAnswer body d).1, (declAnswer body d).2⟩ }) ∧
    (p.decl.kind ≠ kind → s.panels.sorted = true → ∃ t q, exec (.panelDeclare tag body) s = .next t ∧
      t.panels.look id = some q ∧ q.decl = d ∧ q.guide = [] ∧ q.pins = [] ∧
      q.line = {
        state := .absent, reason := none, miss := 0, nextPoll := some s.clock.u, partialCount := 16, lastFull := none,
        commitTime := none, deadline := none, lastBusy := none, rest := .active, ambient := 5, lastPresence := none,
        origin := s.clock.u, brightness := none } ∧
      q.content.inFlight = .nil ∧ q.content.jobPage = none ∧ q.content.shown = ⟨.nil, none, none, .nil⟩ ∧
      q.content.notice = none ∧ q.content.inUse.alert = s.muster.level.alarmed ∧ q.guideSlots = [] ∧
      q.alertSlot = q.stationSlot s.routeEnv .empty ∧
      q.agendaSlots = ({ q with agendaSlots := [] } : Panel).agendaSlotsNow s.routeEnv false (t.agendaEvents id d) ∧
      q.content.rows = (if d.fitted.agenda then t.agendaRows id q else []) ∧
      q.firstDirty ∧ q.content.jobClass = none ∧ q.content.jobForced = false ∧
      q.inUseOk s.muster.level s.clock.set ∧
      q.content.cabin = (if kind = .door then some ⟨none, s.params.primaryLang, false⟩ else none) ∧
      q.content.rotation = (if kind = .door then none else some ⟨0, some (s.clock.u + 1000 * s.params.dwell)⟩) ∧
      t.bookings = s.bookings.filter (fun b => b.panel ≠ id) ∧
      t.events = s.events.map (fun e =>
        { e with bookings := e.bookings - s.countBookings fun b => decide (b.panel = id) && decide (b.event = e.id) }) ∧
      (∀ e ∈ (t.line (lineOf id)).queue, e.panel ≠ id) ∧
      (∀ x, (s.line (lineOf id)).exch = some x →
        (t.line (lineOf id)).exch = some (if x.panel = id then { x with orphan := true } else x)) ∧
      (∀ j, (s.line (lineOf id)).job = some j →
        (t.line (lineOf id)).job = some (if j.panel = id then { j with orphan := true } else j)) ∧
      t.othersAgree s id Panel.apartFromAgenda ∧
      (∀ k, k ≠ id → t.agendaAfter s (∃ b ∈ s.bookings, b.panel = id) k ∧ t.decidedAt s .other k changesAlone) ∧
      (let told := s.toldWithout id p l;
        t.muster = { told.muster with alertDue := told.muster.alertDue.set (lineOf id) none } ∧
        t.link = told.link.reply ⟨0x82, tag, (declAnswer body d).1, (declAnswer body d).2⟩ ∧
        ∃ u : State, t = u.settle s ∧ u.jobsKept { s with panels := s.panels.filter fun e => e.1 ≠ id } ∧
          u.pollsKept { s with panels := s.panels.filter fun e => e.1 ≠ id } ∧
          u.entriesMade ((s.linesWithout id p told).updLine (lineOf id) fun x => { x with alert := none })
            fun _ => false) ∧
      t = { s with
        panels := t.panels
        lines := t.lines
        events := t.events
        bookings := t.bookings
        muster := t.muster
        link := t.link })

/-- PANEL_WITHDRAW refuses an id above 255 and one without a declaration. Otherwise it deletes the declaration, the
records and the bookings of the panel; its queue entry goes, its exchange and job run on without it, and the slot of an
UPDATING door is held until its COMMIT time + 8 s. The muster unit counts the panels that are left and tests for the
end of RESTORING, and a line left without a panel in a drill or muster has its general alert due at once. Nothing else
of the zone tables changes and no epoch is bumped. A changed agenda is marked CONTENT, where only arrows differ too:
the model's reading (log 18). The arbiter picks once, at the end of the event: the model's reading (log 16). -/
def Obligations.PanelWithdraw : Prop :=
  (∀ (tag : Byte) (body : Bytes) (s : State) (l : Link), s.link.take ⟨0x03, tag, body⟩ = some l →
    body.length = 2 → s.store.checkpoint = none →
    (255 < u16 body 0 → exec (.panelWithdraw tag body) s = .next (s.replied l 0x83 tag .badValue .empty)) ∧
    (u16 body 0 ≤ 255 → s.panels.look (u16 body 0) = none →
      exec (.panelWithdraw tag body) s = .next (s.replied l 0x83 tag .notFound .empty))) ∧
  ∀ (tag : Byte) (body : Bytes) (s : State) (l : Link) (p : Panel), s.link.take ⟨0x03, tag, body⟩ = some l →
    body.length = 2 → s.store.checkpoint = none → u16 body 0 ≤ 255 → s.panels.sorted = true →
    s.panels.look (u16 body 0) = some p →
    let id := u16 body 0
    ∃ t, exec (.panelWithdraw tag body) s = .next t ∧ t.panels.look id = none ∧
      t.othersAgree s id Panel.apartFromAgenda ∧
      t.bookings = s.bookings.filter (fun b => b.panel ≠ id) ∧
      t.events = s.events.map (fun e =>
        { e with bookings := e.bookings - s.countBookings fun b => decide (b.panel = id) && decide (b.event = e.id) }) ∧
      (t.line (lineOf id)).slots = (s.line (lineOf id)).slots ∧
      (t.line (lineOf id)).held = (s.line (lineOf id)).held ++
        (match p.line.commitTime with
          | some c => if p.line.state = .updating ∧ p.decl.kind = .door then [c + 8000] else []
          | none => []) ∧
      (∀ e ∈ (t.line (lineOf id)).queue, e.panel ≠ id) ∧
      (∀ x, (s.line (lineOf id)).exch = some x →
        (t.line (lineOf id)).exch = some (if x.panel = id then { x with orphan := true } else x)) ∧
      (∀ j, (s.line (lineOf id)).job = some j →
        (t.line (lineOf id)).job = some (if j.panel = id then { j with orphan := true } else j)) ∧
      (∃ rs : List Report, (∀ r ∈ rs, r.isMuster = true) ∧
        t.link = (rs.foldl Link.report l).reply ⟨0x83, tag, .done, .empty⟩) ∧
      (let told := s.toldWithout id p l;
        t.muster = told.muster ∧ t.link = told.link.reply ⟨0x83, tag, .done, .empty⟩ ∧
        ∃ u : State, t = u.settle s ∧ u.jobsKept s ∧ u.pollsKept s ∧ u.entriesMade (s.linesWithout id p told) fun _ => false) ∧
      t.decided s .other ∧ (∀ k, t.agendaAfter s (∃ b ∈ s.bookings, b.panel = id) k) ∧
      t = { s with
        panels := t.panels
        lines := t.lines
        events := t.events
        bookings := t.bookings
        muster := t.muster
        link := t.link }

/-- GUIDE_SET is refused by the first check of R11 that fails, in its order. One that passes them all replaces the
guide list and the pins of the panel named and computes its slots alone; GUIDE is in use exactly when the list is not
empty; what changed is marked, and the panel queued if it needs drawing (the decision is always taken, log 36). A
changed agenda is marked CONTENT, where a new pin changes an arrow alone too: the model's reading, which follows R53
against R54 and 6.3 (log 18). The arbiter picks once, at the end of the event: the model's reading (log 16). -/
def Obligations.GuideSet : Prop :=
  (∀ (tag : Byte) (body : Bytes) (s : State) (l : Link), s.link.take ⟨0x04, tag, body⟩ = some l →
    body.length = 4 + u8 body 2 + 4 * u8 body 3 → u8 body 2 ≤ 3 → u8 body 3 ≤ 4 → s.store.checkpoint = none →
    let id := u16 body 0
    let pin := fun i k : Nat => u8 body (4 + u8 body 2 + 4 * i + k)
    let guide := (List.range (u8 body 2)).map fun i => u8 body (4 + i)
    let pinned := (List.range (u8 body 3)).map fun i => pin i 0
    let checks : List (Prop × Code) := [
      (255 < id, .badValue),
      (s.panels.look id = none, .notFound),
      (∃ p, s.panels.look id = some p ∧ p.decl.fitted.guide = false, .fitRule),
      (∃ d ∈ guide ++ pinned, 127 < d ∨ s.dests.look d = none, .notFound),
      (¬ guide.Nodup ∨ ¬ pinned.Nodup, .badValue),
      (∃ i, i < u8 body 3 ∧ 7 < pin i 1, .badValue),
      (∃ i, i < u8 body 3 ∧ pin i 2 ≠ 0xFF ∧ (31 < pin i 2 ∨ s.nodes.look (pin i 2) = none), .notFound)]
    (∀ c, refusedBy checks c → exec (.guideSet tag body) s = .next (s.replied l 0x84 tag c .empty)) ∧
    ((∀ x ∈ checks, ¬ x.1) → ∃ p, s.panels.look id = some p ∧ firstRefusal (s.guideChecks body p) = none)) ∧
  ∀ (tag : Byte) (body : Bytes) (s : State) (l : Link) (p : Panel), s.link.take ⟨0x04, tag, body⟩ = some l →
    body.length = 4 + u8 body 2 + 4 * u8 body 3 → u8 body 2 ≤ 3 → u8 body 3 ≤ 4 → s.store.checkpoint = none →
    u16 body 0 ≤ 255 → s.panels.look (u16 body 0) = some p → firstRefusal (s.guideChecks body p) = none →
    let id := u16 body 0
    ∃ t q, exec (.guideSet tag body) s = .next t ∧ t.panels.look id = some q ∧
      q.guide = (List.range (u8 body 2)).map (fun i => u8 body (4 + i)) ∧
      q.pins = (List.range (u8 body 3)).map (fun i =>
        let k := 4 + u8 body 2 + 4 * i
        { dest := u8 body k, arrow := u8 body (k + 1), via := opt8 body (k + 2), hold := flag body (k + 3) 0 }) ∧
      q.guideSlots =
        (({ p with guide := q.guide, pins := q.pins } : Panel).guideSlotsFor s.routeEnv q.guide p.guideSlots).1 ∧
      q.guideSlots.map (·.dest) = q.guide.map some ∧
      q.alertSlot = q.stationSlot s.routeEnv p.alertSlot ∧
      q.agendaSlots = ({ p with guide := q.guide, pins := q.pins } : Panel).agendaSlotsNow s.routeEnv true
        (s.agendaEvents id p.decl) ∧
      (p.decl.fitted.agenda = true → q.content.rows = s.agendaRows id q) ∧
      q.content.inUse.guide = !q.guide.isEmpty ∧ t.decided s .other ∧
      (q.needsDraw = true → p.line.state.queueable = true → t.queued id p q) ∧
      { q.apartFromRoutes with guide := p.guide, pins := p.pins } = p.apartFromRoutes ∧
      t.othersAgree s id Panel.apartFromJob ∧ t.linesDecided s ∧
      t = { s with panels := t.panels, lines := t.lines, link := l.reply ⟨0x84, tag, .done, .empty⟩ }

/-- NODE_STATE (R65) refuses an empty slot and an unknown state; a state that differs is written and bumps the route
epoch, with every slot computed afresh and what changed marked and queued, and an equal one changes nothing. The arbiter picks
once, at the end of the event: the model's reading (log 16). -/
def Obligations.NodeState : Prop :=
  ∀ (tag : Byte) (body : Bytes) (s : State) (l : Link), s.link.take ⟨0x06, tag, body⟩ = some l → body.length = 2 →
    let i := u8 body 0
    ((31 < i ∨ s.nodes.look i = none) →
      exec (.nodeState tag body) s = .next (s.replied l 0x86 tag .notFound .empty)) ∧
    ∀ n, i ≤ 31 → s.nodes.look i = some n →
      (1 < u8 body 1 → exec (.nodeState tag body) s = .next (s.replied l 0x86 tag .badValue .empty)) ∧
      ∀ st, st = (if u8 body 1 = 0 then NodeState.opened else .closed) → u8 body 1 ≤ 1 →
        (n.current = st → exec (.nodeState tag body) s = .next (s.replied l 0x86 tag .done (.changed false))) ∧
        (n.current ≠ st → ∃ t, exec (.nodeState tag body) s = .next t ∧
          t.nodes = s.nodes.put i ⟨n.spec, st⟩ ∧ t.epoch = (s.epoch + 1) % 4294967296 ∧
          t.panelsAgree s Panel.apartFromRoutes ∧ t.linesDecided s ∧
          t.rerouted s { s.routeEnv with nodes := t.nodes } ∧ t.decided s .epoch ∧
          t = { s with
            nodes := t.nodes
            epoch := t.epoch
            panels := t.panels
            lines := t.lines
            link := l.reply ⟨0x86, tag, .done, .changed true⟩ })

/-- NODE_SET enters a node with its current state at the default, or replaces one and keeps its current state; the
epoch is bumped, every slot computed afresh, and what changed marked and queued. A field out of range, or a node that
would break a reference to it (R13), is refused with BAD_VALUE. The arbiter picks once, at the end of the event: the
model's reading (log 16). -/
def Obligations.NodeSet : Prop :=
  ∀ (tag : Byte) (body : Bytes) (s : State) (l : Link), s.link.take ⟨0x05, tag, body⟩ = some l → body.length = 9 →
    s.store.checkpoint = none →
    let i := u8 body 0
    let good := i ≤ 31 ∧ u8 body 1 ≤ 2 ∧ 1 ≤ u8 body 2 ∧ u8 body 2 ≤ u8 body 3 ∧ u8 body 3 ≤ 24 ∧
      (u8 body 1 = 2 → u8 body 2 = u8 body 3) ∧ u16 body 4 ≤ 4095 ∧ -400 ≤ s16 body 6 ∧ s16 body 6 ≤ 400 ∧
      u8 body 8 ≤ 1
    let n : NodeDef := {
      kind := if u8 body 1 = 0 then .stair else if u8 body 1 = 1 then .lift else .zoneDoor
      deckLo := u8 body 2
      deckHi := u8 body 3
      x := u16 body 4
      y := s16 body 6
      initial := if u8 body 8 = 0 then .opened else .closed }
    let breaks := (s.nodes.look i).isSome ∧
      ((n.kind ≠ .zoneDoor ∧ ∃ e ∈ s.dests, e.2.hasPortal i = true) ∨
        ∃ e ∈ s.panels, e.2.decl.ownNode = some i ∧
          ∀ p, e.2.decl.position = some p → ¬ (n.kind ≠ .zoneDoor ∧ n.deckLo ≤ p.deck ∧ p.deck ≤ n.deckHi))
    (good → ¬ breaks → ∃ t, exec (.nodeSet tag body) s = .next t ∧
      t.nodes = s.nodes.put i ⟨n, match s.nodes.look i with
        | some old => old.current
        | none => n.initial⟩ ∧
      t.epoch = (s.epoch + 1) % 4294967296 ∧ t.panelsAgree s Panel.apartFromRoutes ∧ t.linesDecided s ∧
      t.rerouted s { s.routeEnv with nodes := t.nodes } ∧ t.decided s .epoch ∧
      t = { s with
        nodes := t.nodes
        epoch := t.epoch
        panels := t.panels
        lines := t.lines
        link := l.reply ⟨0x85, tag, .done, .empty⟩ }) ∧
    ((¬ good ∨ breaks) → exec (.nodeSet tag body) s = .next (s.replied l 0x85 tag .badValue .empty))

/-- DEST_SET is refused by the first check of R14 that fails, in its order; with deck 0xFF its x and y are not examined
(log 35). One that passes them all fills or replaces its slot as a whole and bumps the epoch. DEST_DROP refuses an
index above 127, an empty slot, and a destination that a panel or an event names; otherwise the slot is emptied and the
epoch bumped. Either way every slot is computed afresh, and what changed is marked and queued. The arbiter picks once,
at the end of the event: the model's reading (log 16). -/
def Obligations.DestSlots : Prop :=
  (∀ (tag : Byte) (body : Bytes) (s : State) (l : Link), s.link.take ⟨0x07, tag, body⟩ = some l → body.length = 13 →
    s.store.checkpoint = none →
    let i := u8 body 0
    let kind := u8 body 1
    let deck := u8 body 4
    let count := u8 body 9
    let portals := (List.range count).map fun k => u8 body (10 + k)
    let letter := u8 body 12
    let checks : List (Prop × Code) := [
      (127 < i ∨ 2 < kind ∨ u16 body 2 = 0 ∨ 4095 < u16 body 2, .badValue),
      (deck ≠ 0xFF ∧ count ≠ 0 ∨ deck = 0xFF ∧ count = 0, .badValue),
      (deck ≠ 0xFF ∧ ¬ (1 ≤ deck ∧ deck ≤ 24 ∧ u16 body 5 ≤ 4095 ∧ -400 ≤ s16 body 7 ∧ s16 body 7 ≤ 400), .badValue),
      (2 < count ∨ ¬ portals.Nodup, .badValue),
      (∃ n ∈ portals, 31 < n ∨ s.nodes.look n = none, .notFound),
      (∃ n ∈ portals, ∃ x, s.nodes.look n = some x ∧ x.spec.kind ≠ .zoneDoor, .badValue),
      ((kind = 1 ∧ letter = 0xFF) ∨ (letter ≠ 0xFF ∧ (15 < letter ∨ kind ≠ 1)), .badValue),
      (kind = 1 ∧ ∃ e ∈ s.dests, e.1 ≠ i ∧ e.2.kind = .station ∧ e.2.letter = some letter, .badValue),
      ((s.dests.look i).isSome ∧ ((kind ≠ 1 ∧ ∃ e ∈ s.panels, e.2.decl.station = i) ∨
        (kind ≠ 0 ∧ ∃ e ∈ s.panels, e.2.decl.venue = some i) ∨ (kind = 1 ∧ ∃ e ∈ s.events, e.venue = i)), .inUse)]
    (∀ c, refusedBy checks c → exec (.destSet tag body) s = .next (s.replied l 0x87 tag c .empty)) ∧
    ((∀ x ∈ checks, ¬ x.1) → ∃ kind, destKindOf (u8 body 1) = some kind ∧
      firstRefusal (s.destChecks body kind) = none)) ∧
  (∀ (tag : Byte) (body : Bytes) (kind : DestKind) (s : State) (l : Link),
    s.link.take ⟨0x07, tag, body⟩ = some l → body.length = 13 → s.store.checkpoint = none →
    destKindOf (u8 body 1) = some kind → u8 body 0 ≤ 127 → 1 ≤ u16 body 2 → u16 body 2 ≤ 4095 →
    firstRefusal (s.destChecks body kind) = none →
    ∃ t, exec (.destSet tag body) s = .next t ∧
      t.dests = s.dests.put (u8 body 0)
        { kind := kind
          name := u16 body 2
          loc := if u8 body 4 = 0xFF then .portals ((List.range (u8 body 9)).map fun i => u8 body (10 + i))
            else .inZone (u8 body 4) (u16 body 5) (s16 body 7)
          letter := opt8 body 12 } ∧
      t.epoch = (s.epoch + 1) % 4294967296 ∧ t.panelsAgree s Panel.apartFromRoutes ∧ t.linesDecided s ∧
      t.rerouted s { s.routeEnv with dests := t.dests } ∧ t.decided s .epoch ∧
      t = { s with
        dests := t.dests
        epoch := t.epoch
        panels := t.panels
        lines := t.lines
        link := l.reply ⟨0x87, tag, .done, .empty⟩ }) ∧
  ∀ (tag : Byte) (body : Bytes) (s : State) (l : Link), s.link.take ⟨0x08, tag, body⟩ = some l → body.length = 1 →
    s.store.checkpoint = none →
    let i := u8 body 0
    let used := (∃ e ∈ s.panels, e.2.decl.station = i ∨ e.2.decl.venue = some i ∨ i ∈ e.2.guide ∨
        ∃ x ∈ e.2.pins, x.dest = i) ∨ ∃ e ∈ s.events, e.venue = i
    (127 < i → exec (.destDrop tag body) s = .next (s.replied l 0x88 tag .badValue .empty)) ∧
    (i ≤ 127 → s.dests.look i = none → exec (.destDrop tag body) s = .next (s.replied l 0x88 tag .notFound .empty)) ∧
    (i ≤ 127 → (s.dests.look i).isSome → used →
      exec (.destDrop tag body) s = .next (s.replied l 0x88 tag .inUse .empty)) ∧
    (i ≤ 127 → (s.dests.look i).isSome → ¬ used → ∃ t, exec (.destDrop tag body) s = .next t ∧
      t.dests = s.dests.del i ∧ t.epoch = (s.epoch + 1) % 4294967296 ∧ t.panelsAgree s Panel.apartFromRoutes ∧
      t.linesDecided s ∧ t.rerouted s { s.routeEnv with dests := t.dests } ∧ t.decided s .epoch ∧
      t = { s with
        dests := t.dests
        epoch := t.epoch
        panels := t.panels
        lines := t.lines
        link := l.reply ⟨0x88, tag, .done, .empty⟩ })

/-- PHRASE_PUT writes, replaces or deletes one text of one language, and marks no panel. An id of 0..255 waits for a
checkpoint in flight (R2); the store takes at most 8192 texts. -/
def Obligations.PhrasePut : Prop :=
  ∀ (tag : Byte) (body : Bytes) (s : State) (l : Link), s.link.take ⟨0x09, tag, body⟩ = some l → 3 ≤ body.length →
    (s.store.checkpoint = none ∨ 256 ≤ u16 body 0) →
    let id := u16 body 0
    let lang := u8 body 2
    let text := body.drop 3
    let key := 8 * id + lang
    exec (.phrasePut tag body) s = .next
      (if id = 0 ∨ 4095 < id ∨ 7 < lang ∨ 64 < text.length then s.replied l 0x89 tag .badValue .empty
      else if text = [] then { s.replied l 0x89 tag .done .empty with phrases := s.phrases.del key }
      else if s.phrases.look key = none ∧ 8192 ≤ s.phrases.length then s.replied l 0x89 tag .tableFull .empty
      else { s.replied l 0x89 tag .done .empty with phrases := s.phrases.put key text })

/-- R18: the wanted language is a door's cabin language, a screen's current rotation language, and the primary
language first on the muster page. The text is the phrase's there, or in the primary language, or "#" and four digits;
phrase 0 is the empty text. -/
def Obligations.PhraseText : Prop :=
  ∀ (s : State) (id lang : Nat), lang ≤ 7 →
    (∀ p : Panel, (∀ c, p.content.cabin = some c → p.wantedLang = c.lang) ∧
      (∀ r, p.content.cabin = none → p.content.rotation = some r → p.wantedLang = p.decl.langs.getD r.index 0) ∧
      (s.alertLangs p).head? = some s.params.primaryLang) ∧
    s.phrase 0 lang = [] ∧
    (id ≠ 0 →
      (∀ t, s.phrases.look (8 * id + lang) = some t → s.phrase id lang = t) ∧
      (s.phrases.look (8 * id + lang) = none →
        (∀ t, s.phrases.look (8 * id + s.params.primaryLang) = some t → s.phrase id lang = t) ∧
        (s.phrases.look (8 * id + s.params.primaryLang) = none → id ≤ 4095 → ∃ a b c d : Nat,
          a < 10 ∧ b < 10 ∧ c < 10 ∧ d < 10 ∧ id = 1000 * a + 100 * b + 10 * c + d ∧
          s.phrase id lang = [0x23, BitVec.ofNat 8 (0x30 + a), BitVec.ofNat 8 (0x30 + b), BitVec.ofNat 8 (0x30 + c),
            BitVec.ofNat 8 (0x30 + d)])))

/-! ### The clock -/

/-- TIME_SET writes R and sets the flag; a pending change whose moment it reaches is applied, with a CLOCK report of
its cause; M is recomputed, and one SET notice is taken by the programme and then by the agendas and notices. U stays.
An agenda mark has class CONTENT, where only arrows differ too: the model's reading (log 18). The arbiter picks once,
at the end of the event: the model's reading (log 16). -/
def Obligations.TimeSet : Prop :=
  ∀ (tag : Byte) (body : Bytes) (s : State) (l : Link), s.link.take ⟨0x10, tag, body⟩ = some l → body.length = 4 →
    let r := u32 body 0
    let reached := s.clock.change.filter fun c => c.effective ≤ r
    let o := (reached.map (·.offset)).getD s.clock.offset
    let m := if (r : Int) + 60 * o < 0 then 0 else (((r : Int) + 60 * o) / 60).toNat
    let c : Clock := { s.clock with
      r := r, set := true, offset := o, change := if reached.isSome then none else s.clock.change, m := some m }
    let n := ({ s with
      clock := c
      link := if reached.isSome then l.report (.clock .timeSet r s.clock.offset o (some m) true) else l } :
        State).programmeNotice .set
    ∃ t, exec (.timeSet tag body) s = .next t ∧ t.noticed s ∧
      t = { s with
        clock := c
        events := n.events
        bookings := n.bookings
        panels := t.panels
        lines := t.lines
        link := n.link.reply ⟨0x90, tag, .done, .empty⟩ }

/-- OFFSET_SET refuses an offset that is none of the 105 values; with R_e at or below R it applies the change at once,
with its CLOCK report and an OFFSET notice, and otherwise the change becomes the pending one. The reply says whether a
pending change was cleared. An agenda mark has class CONTENT, where only arrows differ too: the model's reading (log
18). The arbiter picks once, at the end of the event: the model's reading (log 16). -/
def Obligations.OffsetSet : Prop :=
  ∀ (tag : Byte) (body : Bytes) (s : State) (l : Link), s.link.take ⟨0x11, tag, body⟩ = some l → body.length = 6 →
    let o := s16 body 0
    let re := u32 body 2
    let lawful := o % 15 = 0 ∧ -720 ≤ o ∧ o ≤ 840
    let m := if s.clock.set then
      some (if (s.clock.r : Int) + 60 * o < 0 then 0 else (((s.clock.r : Int) + 60 * o) / 60).toNat) else none
    let c : Clock := { s.clock with offset := o, change := none, m := m }
    let n := ({ s with clock := c, link := l.report (.clock .offsetSet s.clock.r s.clock.offset o m s.clock.set) } :
      State).programmeNotice .offset
    (¬ lawful → exec (.offsetSet tag body) s = .next (s.replied l 0x91 tag .badValue .empty)) ∧
    (lawful → s.clock.r < re → exec (.offsetSet tag body) s = .next { s with
      clock := { s.clock with change := some ⟨o, re⟩ }
      link := l.reply ⟨0x91, tag, .done, .offset .pending s.clock.change.isSome s.clock.offset⟩ }) ∧
    (lawful → re ≤ s.clock.r → ∃ t, exec (.offsetSet tag body) s = .next t ∧ t.noticed s ∧
      t = { s with
        clock := c
        events := n.events
        bookings := n.bookings
        panels := t.panels
        lines := t.lines
        link := n.link.reply ⟨0x91, tag, .done, .offset .applied s.clock.change.isSome o⟩ })

/-- The advance: run time comes to its next whole second, and holds at its last; R counts on, and holds at its last; a
pending change that R reaches is applied, with its CLOCK report; M is recomputed. Without a new M and without a change
there is no notice, and nothing else moves. That the command brings run time to the whole second is the model's choice
(log 3), and that R counts on while run time holds is read from R20 and R23 (log 24). An agenda mark has class CONTENT,
where only arrows differ too: the model's reading (log 18). The arbiter picks once, at the end of the event: the
model's reading (log 16). -/
def Obligations.Advance : Prop :=
  ∀ s : State,
    let u := if s.clock.u / 1000 < 4294967295 then 1000 * (s.clock.u / 1000 + 1) else 4294967295000
    let r := if s.clock.r < 4294967295 then s.clock.r + 1 else s.clock.r
    let reached := s.clock.change.filter fun c => r = c.effective
    let o := (reached.map (·.offset)).getD s.clock.offset
    let m := if s.clock.set then
      some (if (r : Int) + 60 * o < 0 then 0 else (((r : Int) + 60 * o) / 60).toNat) else none
    let c : Clock := { s.clock with
      u := u, r := r, offset := o, change := if reached.isSome then none else s.clock.change, m := m }
    let n := ({ s with
      clock := c
      link := if reached.isSome then s.link.report (.clock .advance r s.clock.offset o m s.clock.set) else s.link } :
        State).programmeNotice (if reached.isSome then .offset else .minute)
    (reached = none → (s.clock.set = false ∨ m = s.clock.m) → exec .advance s = .next { s with clock := c }) ∧
    ((reached.isSome ∨ s.clock.set = true ∧ m ≠ s.clock.m) → ∃ t, exec .advance s = .next t ∧ t.noticed s ∧
      t = { s with
        clock := c
        events := n.events
        bookings := n.bookings
        panels := t.panels
        lines := t.lines
        link := n.link })

/-! ### The programme -/

/-- A clock notice at the programme unit: each event's state becomes the later of its present and its target state, an
ENDED event whose linger has passed leaves with its bookings, and the reports come event by event in the order of the
table, the advance before the removal. Without a ship minute nothing happens. -/
def Obligations.ProgrammeNotice : Prop :=
  ∀ (kind : NoticeKind) (s : State), (s.events.map (·.id)).Nodup →
    (s.clock.m = none → s.programmeNotice kind = s) ∧
    ∀ m, s.clock.m = some m →
      let target := fun e : Event =>
        if e.stop ≤ m then EventState.ended
        else if e.start ≤ m then .on
        else if e.start - m ≤ e.lead then .soon else .listed
      let new := fun e : Event => if e.state.rank < (target e).rank then target e else e.state
      let goes := fun e : Event => new e = .ended ∧ e.stop + e.linger ≤ m
      let count := fun e : Event => (s.bookings.filter fun b => b.event = e.id).length
      let reports := s.events.flatMap fun e =>
        (if new e = e.state then []
          else [.eventState (if new e = .ended ∧ (e.state = .listed ∨ e.state = .soon) then .skipped else .advanced)
            e.id e.state (new e) m kind e.cancelled 0]) ++
        if goes e then [Report.eventState .removed e.id .ended .ended m kind e.cancelled (count e)] else []
      s.programmeNotice kind = { s with
        events := (s.events.filter fun e => ¬ goes e).map fun e => { e with state := new e }
        bookings := s.bookings.filter fun b => ¬ ∃ e ∈ s.events, goes e ∧ e.id = b.event
        link := reports.foldl Link.report s.link }

/-- An EVENT_POST is refused by the first check of R36 that fails, in its order. One that meets every condition enters
or replaces its event, in the order of the table, with lead and linger defaulted or clamped and the state R37 and R38
give; a replaced event keeps its bookings and their count. No other event changes, every agenda is evaluated, and what
changed is marked and queued. A changed agenda is marked CONTENT, where a move to a venue of the same name phrase
changes an arrow alone too: the model's reading, which follows R53 against R54 and 6.3 (log 18). The arbiter picks
once, at the end of the event: the model's reading (log 16). -/
def Obligations.EventPost : Prop :=
  (∀ (tag : Byte) (body : Bytes) (s : State) (l : Link), s.link.take ⟨0x12, tag, body⟩ = some l → body.length = 19 →
    let id := u16 body 0
    let venue := u8 body 2
    let start := u32 body 4
    let stop := u32 body 8
    let checks : List (Prop × Code) := [
      (id = 0, .badValue),
      (127 < venue ∨ s.dests.look venue = none, .notFound),
      (∃ d, s.dests.look venue = some d ∧ d.kind = .station, .badValue),
      (7 < u8 body 3, .badValue),
      (71583628 < start ∨ 71583628 < stop, .badValue),
      (stop ≤ start ∨ 4320 < stop - start, .badValue),
      (u16 body 12 = 0 ∨ 4095 < u16 body 12, .badValue),
      (∃ e, s.event id = some e ∧ e.state = .ended, .eventClosed),
      (∃ m, s.clock.m = some m ∧ stop ≤ m, .eventClosed),
      (s.event id = none ∧ 256 ≤ s.events.length, .tableFull)]
    ∀ c, refusedBy checks c → exec (.eventPost tag body) s = .next (s.replied l 0x92 tag c .empty)) ∧
  ∀ (tag : Byte) (body : Bytes) (s : State) (l : Link) (d : Dest), s.link.take ⟨0x12, tag, body⟩ = some l →
    body.length = 19 →
    let id := u16 body 0
    let start := u32 body 4
    let stop := u32 body 8
    id ≠ 0 → u8 body 2 ≤ 127 → s.dests.look (u8 body 2) = some d → d.kind ≠ .station → u8 body 3 ≤ 7 →
    stop ≤ 71583628 → start < stop → stop - start ≤ 4320 → 1 ≤ u16 body 12 → u16 body 12 ≤ 4095 →
    (∀ e, s.event id = some e → e.state ≠ .ended) → (∀ m, s.clock.m = some m → m < stop) →
    (s.event id = none → s.events.length < 256) →
    let lead := if u16 body 14 = 65535 then 30 else min (u16 body 14) 240
    let linger := if u16 body 16 = 65535 then 15 else min (u16 body 16) 120
    let e : Event := {
      id := id
      venue := u8 body 2
      category := u8 body 3
      start := start
      stop := stop
      title := u16 body 12
      lead := lead
      linger := linger
      featured := (body.getD 18 0).getLsbD 0
      bookingOnly := (body.getD 18 0).getLsbD 1
      cancelled := false
      state := match s.clock.m with
        | none => .listed
        | some m => if start ≤ m then .on else if start - m ≤ lead then .soon else .listed
      bookings := ((s.event id).map (·.bookings)).getD 0 }
    let clamped := u16 body 14 ≠ 65535 ∧ 240 < u16 body 14 ∨ u16 body 16 ≠ 65535 ∧ 120 < u16 body 16
    ∃ t, exec (.eventPost tag body) s = .next t ∧
      (t.events.filter fun x => x.id = id) = [e] ∧
      (t.events.filter fun x => x.id ≠ id) = s.events.filter (fun x => x.id ≠ id) ∧
      (eventOrdered s.events → eventOrdered t.events) ∧
      t.reagended s ∧ t.decided s .other ∧ t.panelsAgree s Panel.apartFromAgenda ∧ t.linesDecided s ∧
      t = { s with
        events := t.events
        panels := t.panels
        lines := t.lines
        link := l.reply ⟨0x92, tag, if clamped then .adjusted else .done,
          .event lead linger e.state (s.event id).isSome⟩ }

/-- EVENT_CANCEL sets the cancelled flag of an event that is not ENDED, and EVENT_DROP removes an event with every
booking that names it; neither creates a report, every agenda is evaluated, and what changed is marked and queued. A
flag already set changes nothing. An agenda mark has class CONTENT, where only arrows differ too: the model's reading
(log 18). The arbiter picks once, at the end of the event: the model's reading (log 16). -/
def Obligations.EventCancelDrop : Prop :=
  ∀ (tag : Byte) (body : Bytes) (s : State) (l : Link), body.length = 2 →
    let id := u16 body 0
    (s.link.take ⟨0x13, tag, body⟩ = some l →
      (s.event id = none → exec (.eventCancel tag body) s = .next (s.replied l 0x93 tag .notFound .empty)) ∧
      ∀ e, s.event id = some e →
        (e.state = .ended → exec (.eventCancel tag body) s = .next (s.replied l 0x93 tag .eventClosed .empty)) ∧
        (e.state ≠ .ended → e.cancelled = true →
          exec (.eventCancel tag body) s = .next (s.replied l 0x93 tag .done .empty)) ∧
        (e.state ≠ .ended → e.cancelled = false → ∃ t, exec (.eventCancel tag body) s = .next t ∧
          t.reagended s ∧ t.decided s .other ∧ t.panelsAgree s Panel.apartFromAgenda ∧ t.linesDecided s ∧
          t = { s with
            events := s.events.map fun x => if x.id = id then { e with cancelled := true } else x
            panels := t.panels
            lines := t.lines
            link := l.reply ⟨0x93, tag, .done, .empty⟩ })) ∧
    (s.link.take ⟨0x14, tag, body⟩ = some l →
      (s.event id = none → exec (.eventDrop tag body) s = .next (s.replied l 0x94 tag .notFound .empty)) ∧
      ((s.event id).isSome → ∃ t, exec (.eventDrop tag body) s = .next t ∧
        t.reagended s ∧ t.decided s .other ∧ t.panelsAgree s Panel.apartFromAgenda ∧ t.linesDecided s ∧
        t = { s with
          events := s.events.filter fun x => x.id ≠ id
          bookings := s.bookings.filter fun b => b.event ≠ id
          panels := t.panels
          lines := t.lines
          link := l.reply ⟨0x94, tag, .done, .count (s.bookings.filter fun b => b.event = id).length⟩ }))

/-- BOOKING_ADD, its checks in the order of R42: a new pair joins the list and is counted at its event, a pair already
there changes nothing, and the limits are 16 for a panel and 1024 in all. BOOKING_REMOVE takes a pair out of the list
and counts it off its event; a pair that is not there leaves the list unchanged, whatever panel and event it names.
Either way every agenda is evaluated, and what changed is marked and queued; an agenda mark has class CONTENT, where
only arrows differ too: the model's reading (log 18). The arbiter picks once, at the end of the event: the model's
reading (log 16). -/
def Obligations.BookingPairs : Prop :=
  (∀ (tag : Byte) (body : Bytes) (s : State) (l : Link), s.link.take ⟨0x15, tag, body⟩ = some l → body.length = 4 →
    let id := u16 body 0
    let k : Booking := ⟨id, u16 body 2⟩
    let door := ∃ p, s.panels.look id = some p ∧ p.decl.kind = .door
    let answer := fun c : Code => exec (.bookingAdd tag body) s = .next (s.replied l 0x95 tag c .empty)
    let full := 16 ≤ (s.bookings.filter fun b => b.panel = id).length ∨ 1024 ≤ s.bookings.length
    (255 < id → answer .badValue) ∧
    (id ≤ 255 → s.event k.event = none ∨ ¬ door → answer .notFound) ∧
    ∀ e, id ≤ 255 → s.event k.event = some e → door →
      (e.state = .ended → answer .eventClosed) ∧
      (e.state ≠ .ended → k ∈ s.bookings → answer .done) ∧
      (e.state ≠ .ended → k ∉ s.bookings → full → answer .tableFull) ∧
      (e.state ≠ .ended → k ∉ s.bookings → ¬ full → ∃ t, exec (.bookingAdd tag body) s = .next t ∧
        t.reagended s ∧ t.decided s .other ∧ t.panelsAgree s Panel.apartFromAgenda ∧ t.linesDecided s ∧
        t = { s with
          bookings := s.bookings ++ [k]
          events := s.events.map fun x => if x.id = k.event then { x with bookings := x.bookings + 1 } else x
          panels := t.panels
          lines := t.lines
          link := l.reply ⟨0x95, tag, .done, .empty⟩ })) ∧
  ∀ (tag : Byte) (body : Bytes) (s : State) (l : Link), s.link.take ⟨0x16, tag, body⟩ = some l → body.length = 4 →
    s.bookings.Nodup →
    let k : Booking := ⟨u16 body 0, u16 body 2⟩
    (255 < k.panel → exec (.bookingRemove tag body) s = .next (s.replied l 0x96 tag .badValue .empty)) ∧
    (k.panel ≤ 255 → k ∉ s.bookings →
      exec (.bookingRemove tag body) s = .next (s.replied l 0x96 tag .done (.removed false))) ∧
    (k.panel ≤ 255 → k ∈ s.bookings → ∃ t, exec (.bookingRemove tag body) s = .next t ∧
      t.reagended s ∧ t.decided s .other ∧ t.panelsAgree s Panel.apartFromAgenda ∧ t.linesDecided s ∧
      t = { s with
        bookings := s.bookings.filter fun b => b ≠ k
        events := s.events.map fun x => if x.id = k.event then { x with bookings := x.bookings - 1 } else x
        panels := t.panels
        lines := t.lines
        link := l.reply ⟨0x96, tag, .done, .removed true⟩ })

/-! ### Content -/

/-- CABIN_SET writes the cabin part of a door, or empties it for a vacate with the door's bookings; a change of
occupant line or DND flag marks PLATE, a change of language every component in use, and a changed DND flag is reported
with source HOST. What changed is queued: the door first, then, for a vacate with bookings, the agendas in ascending id
(an agenda mark has class CONTENT, where only arrows differ too: the model's reading, log 18). Every other entry, job,
line state and poll stays, until the arbiter picks on the idle lines that got an entry, once, at the end of the event:
the model's reading (log 16). -/
def Obligations.CabinSet : Prop :=
  ∀ (tag : Byte) (body : Bytes) (s : State) (l : Link), s.link.take ⟨0x17, tag, body⟩ = some l →
    body.length = 5 + u8 body 4 →
    let id := u16 body 0
    let vacate := (body.getD 2 0).getLsbD 0
    let good := vacate = true ∨ u8 body 4 ≤ 24 ∧ u8 body 3 ≤ 7 ∧
      ∀ c ∈ body.drop 5, 0x20 ≤ c.toNat ∧ c.toNat ≤ 0x7E
    let new : Cabin := if vacate then ⟨none, s.params.primaryLang, false⟩
      else ⟨if u8 body 4 = 0 then none else some (body.drop 5), u8 body 3, (body.getD 2 0).getLsbD 1⟩
    let rest := fun p : Panel =>
      { p.apartFromAgenda with content := { p.apartFromAgenda.content with cabin := none } }
    let answer := fun c : Code => exec (.cabinSet tag body) s = .next (s.replied l 0x97 tag c .empty)
    (255 < id → answer .badValue) ∧
    (id ≤ 255 → (∀ p, s.panels.look id = some p → p.decl.kind ≠ .door) → answer .notFound) ∧
    ∀ p, id ≤ 255 → s.panels.look id = some p → p.decl.kind = .door →
      (¬ good → answer .badValue) ∧
      ∀ c, good → p.content.cabin = some c → ∃ t q, exec (.cabinSet tag body) s = .next t ∧
        t.panels.look id = some q ∧ q.content.cabin = some new ∧
        (new.occupant ≠ c.occupant ∨ new.dnd ≠ c.dnd → q.content.dirty.plate.isSome) ∧
        (new.lang ≠ c.lang → ∀ k, p.content.inUse.has k → (q.content.dirty.get k).isSome) ∧
        rest q = rest p ∧ t.decidedAt s .other id (langClass p.content.inUse) ∧
        (∀ k, k ≠ id → t.decidedAt s .other k changesAlone) ∧
        (∀ k, t.agendaAfter s (vacate = true ∧ ∃ b ∈ s.bookings, b.panel = id) k) ∧
        t.othersAgree s id (if vacate then Panel.apartFromAgenda else Panel.apartFromJob) ∧
        (∃ v u : State, t = u.settle s ∧ v.entriesMade s (fun _ => false) ∧ u.entriesMade v (fun _ => false) ∧
          u.decidedInOrder v ∧ v.otherLines s (lineOf id) ∧ (∀ k, k ≠ id → v.panels.look k = s.panels.look k) ∧
          u.jobsKept s ∧ u.pollsKept s) ∧
        t = { s with
          bookings := if vacate then s.bookings.filter fun b => b.panel ≠ id else s.bookings
          events := if vacate then s.events.map fun e => { e with
              bookings := e.bookings - (s.bookings.filter fun b => b.panel = id ∧ b.event = e.id).length }
            else s.events
          panels := t.panels
          lines := t.lines
          link := (if new.dnd = c.dnd then l
            else l.report (.guestRequest (if new.dnd then .dndOn else .dndOff) id .host s.clock.m s.seconds)).reply
              ⟨0x97, tag, .done, .empty⟩ }

/-- NOTICE_SET is refused by the first check of R56 that fails, in its order. One that passes them all writes the
notice field of every panel it selects that has NOTICE fitted: the phrase and its expiry, or none for phrase 0 and for
an expiry already reached. NOTICE is in use while a notice is held, and the in-use set is otherwise as R85 has it and
had it. A changed phrase marks NOTICE and queues the panel; nothing else of its record changes; the reply counts the
panels. Every other entry, job, line state and poll stays, until the arbiter picks on the idle lines that got an entry,
once, at the end of the event: the model's reading (log 16). -/
def Obligations.NoticeSet : Prop :=
  (∀ (tag : Byte) (body : Bytes) (s : State) (l : Link), s.link.take ⟨0x18, tag, body⟩ = some l → body.length = 9 →
    let selector := u8 body 0
    let target := u16 body 1
    let checks : List (Prop × Code) := [
      (3 < selector, .badValue),
      (selector = 0 ∧ 255 < target, .badValue),
      (selector = 0 ∧ s.panels.look target = none, .notFound),
      (selector = 0 ∧ ∃ p, s.panels.look target = some p ∧ p.decl.fitted.notice = false, .fitRule),
      (selector = 1 ∧ 3 < target ∨ selector = 2 ∧ ¬ (1 ≤ target ∧ target ≤ 24), .badValue),
      (4095 < u16 body 3, .badValue),
      (u32 body 5 ≠ 4294967295 ∧ 71583628 < u32 body 5, .badValue)]
    ∀ c, refusedBy checks c → exec (.noticeSet tag body) s = .next (s.replied l 0x98 tag c .empty)) ∧
  ∀ (tag : Byte) (body : Bytes) (s : State) (l : Link), s.link.take ⟨0x18, tag, body⟩ = some l → body.length = 9 →
    u8 body 0 ≤ 3 →
    (u8 body 0 = 0 → u16 body 1 ≤ 255 ∧ ∃ p, s.panels.look (u16 body 1) = some p ∧ p.decl.fitted.notice = true) →
    (u8 body 0 = 1 → u16 body 1 ≤ 3) → (u8 body 0 = 2 → 1 ≤ u16 body 1 ∧ u16 body 1 ≤ 24) →
    u16 body 3 ≤ 4095 → (u32 body 5 = 4294967295 ∨ u32 body 5 ≤ 71583628) →
    let selected := fun (id : Nat) (p : Panel) => p.decl.fitted.notice &&
      match u8 body 0 with
      | 0 => decide (id = u16 body 1)
      | 1 => decide (p.decl.kind.code = u16 body 1)
      | 2 => p.decl.position.any fun x => x.deck = u16 body 1
      | _ => true
    let past := u32 body 5 ≠ 4294967295 && s.clock.m.any fun m => decide (u32 body 5 ≤ m)
    let new : Option Notice := if u16 body 3 = 0 || past then none
      else some ⟨u16 body 3, if u32 body 5 = 4294967295 then none else some (u32 body 5)⟩
    ∃ t, exec (.noticeSet tag body) s = .next t ∧
      (∀ id p, s.panels.look id = some p → ∃ q, t.panels.look id = some q ∧
        if selected id p then
          q.content.notice = new ∧ q.inUseOk s.muster.level s.clock.set ∧
          (p.inUseOk s.muster.level s.clock.set →
            q.content.inUse = { p.content.inUse with notice := new.isSome }) ∧
          (new.map (·.phrase) ≠ p.content.notice.map (·.phrase) →
            ∃ k, q.content.dirty.notice = some k ∧ DrawClass.content.rank ≤ k.rank) ∧
          q.apartFromJob = { p.apartFromJob with content := { p.apartFromJob.content with
            notice := new
            inUse := q.content.inUse
            dirty := { p.content.dirty with notice := q.content.dirty.notice } } }
        else q.apartFromJob = p.apartFromJob) ∧
      t.linesDecided s ∧ t.decided s .other ∧
      t = { s with
        panels := t.panels
        lines := t.lines
        link := l.reply
          ⟨0x98, tag, .done, .count (s.panels.filter fun e => selected e.1 e.2).length⟩ }

/-- REDRAW marks every component that a panel shows with class CONTENT, and no other, for the panel named or for every
one, and takes the draw decision in either case: a panel so marked needs drawing and is queued. With the full flag set
its entry has the force-full flag, or the job it has just been granted; with the flag clear every entry keeps the one
it had, and a new one has it clear. Every other entry, job, line state and poll stays, until the arbiter picks on the
idle lines that got an entry, once, at the end of the event: the model's reading (log 16). -/
def Obligations.Redraw : Prop :=
  ∀ (tag : Byte) (body : Bytes) (s : State) (l : Link), s.link.take ⟨0x29, tag, body⟩ = some l → body.length = 4 →
    s.panels.sorted = true →
    let chosen := fun id : Nat => u8 body 0 = 1 ∨ id = u16 body 1
    (1 < u8 body 0 ∨ u8 body 0 = 0 ∧ 255 < u16 body 1 →
      exec (.redraw tag body) s = .next (s.replied l 0xA9 tag .badValue .empty)) ∧
    (u8 body 0 = 0 → u16 body 1 ≤ 255 → s.panels.look (u16 body 1) = none →
      exec (.redraw tag body) s = .next (s.replied l 0xA9 tag .notFound .empty)) ∧
    (u8 body 0 = 1 ∨ u8 body 0 = 0 ∧ u16 body 1 ≤ 255 ∧ (s.panels.look (u16 body 1)).isSome →
      ∃ t, exec (.redraw tag body) s = .next t ∧
        (∀ id p, s.panels.look id = some p → ∃ q, t.panels.look id = some q ∧
          q.apartFromMarks = p.apartFromMarks ∧ q.content.inUse = p.content.inUse ∧
          (¬ chosen id → q.content.dirty = p.content.dirty) ∧
          (chosen id →
            (∀ c, q.content.dirty.get c =
              higherMark (p.content.dirty.get c) (if p.visible.has c then some .content else none)) ∧
            (p.line.state.queueable = true → q.needsDraw = true → t.queued id p q ∧
              ((body.getD 3 0).getLsbD 0 = true →
                (∃ e ∈ (t.line (lineOf id)).queue, e.panel = id ∧ e.full = true) ∨
                  (p.line.state = .live ∧ q.line.state = .serving ∧ q.content.jobForced = true))) ∧
            (p.visible ≠ .nil → q.needsDraw = true))) ∧
        t.linesForced s (fun id => decide (chosen id) && (body.getD 3 0).getLsbD 0) ∧
        t = { s with
          panels := t.panels
          lines := t.lines
          link := l.reply ⟨0xA9, tag, .done, .count (if u8 body 0 = 1 then s.panels.length else 1)⟩ })

/-- A rotation step: the index goes on round the language list, the next step is due a dwell after this one, and a
language that differs marks every component the panel shows with class ROTATION and queues it. While the level is DRILL
or MUSTER no step is taken. The arbiter picks once, at the end of the event: the model's reading (log 16). -/
def Obligations.RotationStep : Prop :=
  ∀ (id d : Nat) (p : Panel) (r : Rotation) (s : State), s.panels.look id = some p → p.content.rotation = some r →
    r.due = some d → d ≤ s.clock.u →
    ((s.muster.level = .drill ∨ s.muster.level = .muster) → exec (.rotationStep id) s = .next s) ∧
    ((s.muster.level = .normal ∨ s.muster.level = .restoring) →
      let i := if r.index + 1 < p.decl.langs.length then r.index + 1 else 0
      let same := p.decl.langs.getD r.index 0 = p.decl.langs.getD i 0
      let rest := fun q : Panel =>
        { q.apartFromMarks with content := { q.apartFromMarks.content with rotation := none } }
      ∃ t q, exec (.rotationStep id) s = .next t ∧ t.panels.look id = some q ∧
        q.content.rotation = some ⟨i, some (d + 1000 * s.params.dwell)⟩ ∧
        (same → q.content.dirty = p.content.dirty) ∧
        (¬ same → (∀ c, q.content.dirty.get c =
            higherMark (p.content.dirty.get c) (if p.visible.has c then some .rotation else none)) ∧
          (p.visible ≠ .nil → p.line.state.queueable = true → t.queued id p q)) ∧
        q.content.inUse = p.content.inUse ∧ rest q = rest p ∧
        t.othersAgree s id Panel.apartFromJob ∧ t.linesDecided s ∧
        t = { s with panels := t.panels, lines := t.lines })

/-- R75, R76 and R77: the bearing of a target, the arrow it gives, and the arrow that the hysteresis keeps. -/
def Obligations.ArrowArithmetic : Prop :=
  ∀ (dx ds : Int) (h hyst : Nat) (prev : Option Nat), dx.natAbs + ds.natAbs ≠ 0 → h ≤ 255 →
    (∀ p, prev = some p → p ≤ 7) →
    let a := dx.natAbs
    let b := ds.natAbs
    let c := arrowCalc hyst h dx ds prev
    (c.fine = if b ≤ a then 32 * b / a else 32 * a / b) ∧ c.fine ≤ 32 ∧
    (c.theta = if b ≤ a then c.fine else 64 - c.fine) ∧ c.theta ≤ 64 ∧ (a = b → c.theta = 32) ∧
    (0 ≤ dx → 0 ≤ ds → c.bearing = c.theta) ∧ (dx < 0 → 0 ≤ ds → c.bearing = 128 - c.theta) ∧
    (dx ≤ 0 → ds < 0 → c.bearing = 128 + c.theta) ∧ (0 < dx → ds < 0 → c.bearing = (256 - c.theta) % 256) ∧
    c.bearing ≤ 255 ∧
    ((c.relative : Int) = ((c.bearing : Int) - h) % 256) ∧ c.raw = (c.relative + 16) % 256 / 32 ∧ c.raw ≤ 7 ∧
    (prev = none → c.computed = c.raw) ∧
    ∀ p, prev = some p →
      let d : Int := min (((c.relative : Int) - 32 * p) % 256) ((32 * p - (c.relative : Int)) % 256)
      c.computed = if d ≤ 16 + hyst then p else c.raw

/-- The route law: a computed route passes only through OPEN nodes, and through no LIFT while the level is DRILL or
MUSTER. The portal and the vertical node are the cheapest that qualify, the lower index among equal costs; whenever one
qualifies one is chosen, and where none does the result is NO_ROUTE. An in-zone destination is its own goal, a goal on
the panel's deck takes no vertical node, and the deck glyph is that of R73. A panel without a position has NO_ROUTE. A
LANDING whose own node is the vertical node, and a target within the radius, give HERE; elsewhere the arrow is computed
from the previous one, which counts only while destination and target are the same, and follows the computed arrow. The
GUIDE slot of row k serves the k-th destination of the guide list, from the slot held there while that has it. A
pin replaces the arrow unless it yields at DRILL or MUSTER or to its CLOSED via node, and never on the ALERT slot. -/
def Obligations.RouteLaw : Prop :=
  (∀ (s : State) (p : Panel) (d : Nat) (old : Slot),
    let own := if p.decl.kind = .landing then p.decl.ownNode else none
    let holds := fun (x : Slot) (pins : List Pin) (d : Nat) (name : Option Nat) =>
      let r := routeCalc s.routeEnv p.decl.position own pins d old
      x = {
        dest := some d
        name := name
        portal := match r.goal with
          | some (.portal i _) => some i
          | some (.point _ _ _) => none
          | none => none
        vertical := r.vertical.map (·.1)
        target := r.target
        prev := r.figures.map (·.computed)
        result := some r.result
        glyph := r.glyph
        pinned := r.pinApplied }
    let named := fun d => (s.dests.look d).map (·.name)
    holds (p.guideSlot s.routeEnv d old) p.pins d (named d) ∧ holds (p.agendaSlot s.routeEnv d old) p.pins d none ∧
      holds (p.stationSlot s.routeEnv old) [] p.decl.station (named p.decl.station)) ∧
  (∀ (s : State) (p : Panel) (guide : List Nat) (held : List Slot) (k : Nat),
    let old := held.getD k .empty
    (p.guideSlotsFor s.routeEnv guide held).1[k]? =
      guide[k]?.map fun d => p.guideSlot s.routeEnv d (if old.dest = some d then old else .empty)) ∧
  (∀ (s : State) (own : Option Nat) (pins : List Pin) (d : Nat) (old : Slot),
    routeCalc s.routeEnv none own pins d old =
      { stage := .noPosition, goal := none, vertical := none, target := none, targetXY := none, glyph := none,
        delta := none, figures := none, pinApplied := false, result := .noRoute }) ∧
  (∀ (s : State) (pos : Position) (own : Option Nat) (pins : List Pin) (d : Nat) (old : Slot),
    let r := routeCalc s.routeEnv (some pos) own pins d old
    (r.target = none → r.result = .noRoute ∧ r.figures = none ∧ r.pinApplied = false) ∧
    ∀ (t : Target) (x y : Int), r.target = some t →
      (match t with
        | .node i => ∃ n, s.nodes.look i = some n ∧ x = n.spec.x ∧ y = n.spec.y
        | .point _ a b => x = a ∧ y = b) →
      let dx := x - pos.x
      let ds := pos.y - y
      let ownNode := ∃ i c, r.vertical = some (i, c) ∧ own = some i
      let arrived := dx.natAbs + ds.natAbs ≤ pos.radius
      let prev := if old.dest = some d ∧ old.target = some t then old.prev else none
      let c := arrowCalc s.params.hysteresis ((64 * (pos.quadrant : Int) + pos.trim) % 256).toNat dx ds prev
      let yields := fun pin : Pin =>
        ((s.muster.level = .drill ∨ s.muster.level = .muster) ∧ pin.hold = false) ∨
          ∃ v n, pin.via = some v ∧ s.nodes.look v = some n ∧ n.current = .closed
      r.targetXY = some (x, y) ∧
      (ownNode ∨ arrived → r.result = .here ∧ r.figures = none ∧ r.pinApplied = false) ∧
      (¬ ownNode → r.delta = some (dx, ds)) ∧
      (¬ ownNode → ¬ arrived → r.figures = some c ∧
        ((∀ pin ∈ pins, pin.dest ≠ d) → r.result = .arrow c.computed ∧ r.pinApplied = false) ∧
        ∀ a pin b, pins = a ++ pin :: b → pin.dest = d → (∀ q ∈ a, q.dest ≠ d) →
          (yields pin → r.result = .arrow c.computed ∧ r.pinApplied = false) ∧
          (¬ yields pin → r.result = .arrow pin.arrow ∧ r.pinApplied = true))) ∧
  ∀ (s : State) (pos : Position) (own : Option Nat) (pins : List Pin) (d : Nat) (old : Slot),
    s.nodes.sorted = true →
    let r := routeCalc s.routeEnv (some pos) own pins d old
    let cost := fun (n : Node) (k : Nat) (x y : Int) (deck : Nat) =>
      (n.spec.x - pos.x).natAbs + (n.spec.y - pos.y).natAbs + (n.spec.x - x).natAbs + (n.spec.y - y).natAbs +
        k * ((deck : Int) - pos.deck).natAbs
    let fits := fun (g : Nat) (m : Node) => m.spec.kind ≠ .zoneDoor ∧ m.current = .opened ∧
      m.spec.deckLo ≤ pos.deck ∧ pos.deck ≤ m.spec.deckHi ∧ m.spec.deckLo ≤ g ∧ g ≤ m.spec.deckHi ∧
      (m.spec.kind = .lift → s.muster.level ≠ .drill ∧ s.muster.level ≠ .muster)
    (∀ k x y, (s.dests.look d).map (·.loc) = some (.inZone k x y) → r.goal = some (.point k x y)) ∧
    (∀ ns, (s.dests.look d).map (·.loc) = some (.portals ns) →
      let usable := ∃ j ∈ ns, ∃ m, s.nodes.look j = some m ∧ m.current = .opened
      (usable → ∃ i c, r.goal = some (.portal i c)) ∧ (¬ usable →
        r.goal = none ∧ r.vertical = none ∧ r.target = none ∧ r.glyph = none ∧ r.result = .noRoute)) ∧
    (∀ g x y, r.goal.bind (goalPoint s.routeEnv) = some (g, x, y) →
      let qualifies := ∃ j m, s.nodes.look j = some m ∧ fits g m
      (g = pos.deck → r.vertical = none ∧ r.glyph = none ∧ r.target = (match r.goal with
        | some (.portal i _) => some (.node i)
        | some (.point k x y) => some (.point k x y)
        | none => none)) ∧
      (g ≠ pos.deck → qualifies → (∃ i c, r.vertical = some (i, c)) ∧
        r.glyph = some (if pos.deck < g then .up (min (g - pos.deck) 9) else .down (min (pos.deck - g) 9))) ∧
      (g ≠ pos.deck → ¬ qualifies →
        r.vertical = none ∧ r.target = none ∧ r.glyph = none ∧ r.result = .noRoute)) ∧
    (∀ i c, r.goal = some (.portal i c) → ∃ n ns, s.nodes.look i = some n ∧ n.current = .opened ∧
      (s.dests.look d).map (·.loc) = some (.portals ns) ∧ i ∈ ns ∧
      c = cost n 30 n.spec.x n.spec.y n.spec.deckLo ∧
      ∀ j m, j ∈ ns → s.nodes.look j = some m → m.current = .opened →
        c < cost m 30 m.spec.x m.spec.y m.spec.deckLo ∨
          (c = cost m 30 m.spec.x m.spec.y m.spec.deckLo ∧ i ≤ j)) ∧
    ∀ i c, r.vertical = some (i, c) → ∃ n g x y, s.nodes.look i = some n ∧
      (r.goal.bind (goalPoint s.routeEnv)) = some (g, x, y) ∧ g ≠ pos.deck ∧ r.target = some (.node i) ∧
      let price := fun m : Node => cost m (if m.spec.kind = .lift then 10 else 30) x y g
      fits g n ∧ c = price n ∧
      ∀ j m, s.nodes.look j = some m → fits g m → c < price m ∨ (c = price m ∧ i ≤ j)

/-! ### The muster unit -/

/-- An alarm input: a raw level that differs from the reading starts the debounce, one that equals it ends it. After
200 ms the reading takes the raw level with a report; an assertion sets the latch and raises the level to the input's
own, when that ranks above the present one, with all that R137 does, the polls of LIVE screens brought forward
included. The arbiter picks once, at the end of the event: the model's reading (log 16). -/
def Obligations.AlarmInputs : Prop :=
  ∀ (i : AlarmInput) (s : State),
    (∀ raw : Bool, ∃ m : Muster, exec (.alarmInputChange i raw) s = .next { s with muster := m } ∧
      m.input i = { s.muster.input i with
        raw := raw
        debounce := if raw = (s.muster.input i).reading then none
          else some ((s.muster.input i).debounce.getD s.clock.u) } ∧
      m = s.muster.setInput i (m.input i)) ∧
    ∀ d, (s.muster.input i).debounce = some d → d + 200 ≤ s.clock.u →
      let raw := (s.muster.input i).raw
      let level : AlertLevel := if i = .drill then .drill else .muster
      let cause : LevelCause := if i = .drill then .drillInput else .generalInput
      let taken : State := { s with muster := s.muster.setInput i {
        raw := raw, reading := raw, debounce := none, latch := (s.muster.input i).latch || raw } }
      let link := s.link.report (.musterInput s.seconds i raw taken.muster.drill.latch taken.muster.general.latch)
      (raw = false ∨ level.level.rank ≤ s.muster.level.rank →
        exec (.alarmDebounceExpiry i) s = .next { taken with link := link }) ∧
      (raw = true → s.muster.level.rank < level.level.rank → ∃ t, exec (.alarmDebounceExpiry i) s = .next t ∧
        t.raised taken level ∧ t.link = taken.raiseReports level cause link)

/-- MODE_SET sets the zone mode, and opens or closes the night sweep with it; while the level is DRILL or MUSTER it
sets the saved mode and answers DEFERRED. -/
def Obligations.ModeSet : Prop :=
  ∀ (tag : Byte) (body : Bytes) (s : State) (l : Link), s.link.take ⟨0x20, tag, body⟩ = some l → body.length = 1 →
    let m : Mode := if u8 body 0 = 0 then .day else .night
    let opens := m = .night ∧ s.muster.level = .normal
    let opened := s.muster.mode = .night ∧ s.muster.level = .normal
    (1 < u8 body 0 → exec (.modeSet tag body) s = .next (s.replied l 0xA0 tag .badValue .empty)) ∧
    (u8 body 0 ≤ 1 → s.muster.level = .drill ∨ s.muster.level = .muster →
      exec (.modeSet tag body) s = .next
        { s.replied l 0xA0 tag .deferred .empty with muster := { s.muster with saved := m } }) ∧
    (u8 body 0 ≤ 1 → s.muster.level = .normal ∨ s.muster.level = .restoring →
      exec (.modeSet tag body) s = .next
        { s.replied l 0xA0 tag .done .empty with
          muster := { s.muster with mode := m }
          lines := .build fun i => { s.line i with
            sweepDue := if opens ∧ ¬ opened then some (s.clock.u + 1000 * s.params.sweepInterval)
              else if opened ∧ ¬ opens then none else (s.line i).sweepDue } })

/-- MUSTER_RAISE: a level that ranks below the present one is refused, an equal one changes nothing, and a higher one
takes effect as R137 says: the level, the saved mode, the coverage record and its reports, the general alerts, every
slot and agenda computed with lifts barred when the level comes into DRILL or MUSTER, ALERT in use and marked, every
panel that needs drawing queued, rotation suspended with its index kept (an escalation leaves it as it is), the ladder
at ACTIVE, and the next poll of a LIVE screen at most 1 s away. The arbiter picks once, at the end of the event: the
model's reading (log 16). -/
def Obligations.MusterRaise : Prop :=
  ∀ (tag : Byte) (body : Bytes) (s : State) (l : Link), s.link.take ⟨0x21, tag, body⟩ = some l → body.length = 1 →
    let level : AlertLevel := if u8 body 0 = 1 then .drill else .muster
    (u8 body 0 = 0 ∨ 2 < u8 body 0 →
      exec (.musterRaise tag body) s = .next (s.replied l 0xA1 tag .badValue .empty)) ∧
    (u8 body 0 = 1 ∨ u8 body 0 = 2 →
      (level.level.rank < s.muster.level.rank →
        exec (.musterRaise tag body) s = .next (s.replied l 0xA1 tag .levelLower .empty)) ∧
      (level.level = s.muster.level →
        exec (.musterRaise tag body) s = .next (s.replied l 0xA1 tag .done .empty)) ∧
      (s.muster.level.rank < level.level.rank → ∃ t, exec (.musterRaise tag body) s = .next t ∧ t.raised s level ∧
        t.link = (s.raiseReports level .hostRaise l).reply ⟨0xA1, tag, .done, .empty⟩))

/-- ALL_CLEAR is refused outside a drill or muster, and while an input reads asserted. Accepted: the latches clear, the
saved mode is the zone mode again, the coverage record and the general alerts end, one that was pending included, every
slot and agenda is computed with lifts allowed, ALERT leaves use, what changed is marked and queued, rotation resumes
with its index kept, the ladder is evaluated and the next poll of a LIVE screen comes no later than its new interval;
RESTORING ends at once when no panel in service shows the muster page. No other command leaves DRILL or MUSTER, but for
start-up. The arbiter picks once, at the end of the event: the model's reading (log 16). -/
def Obligations.AllClear : Prop :=
  (∀ (tag : Byte) (s : State) (l : Link), s.link.take ⟨0x22, tag, []⟩ = some l →
    (s.muster.level = .normal ∨ s.muster.level = .restoring →
      exec (.allClear tag []) s = .next (s.replied l 0xA2 tag .notInMuster .empty)) ∧
    (s.muster.level = .drill ∨ s.muster.level = .muster →
      s.muster.drill.reading = true ∨ s.muster.general.reading = true →
      exec (.allClear tag []) s = .next (s.replied l 0xA2 tag .lineHeld .empty))) ∧
  (∀ (tag : Byte) (s : State) (l : Link), s.link.take ⟨0x22, tag, []⟩ = some l →
    s.muster.level = .drill ∨ s.muster.level = .muster → s.muster.drill.reading = false →
    s.muster.general.reading = false →
    let shown := ∃ e ∈ s.panels, e.2.line.state.inService = true ∧ e.2.content.shown.set.alert = true
    let epoch := (s.epoch + 1) % 4294967296
    let level : Level := if shown then .restoring else .normal
    let cleared := l.report (.musterLevel s.seconds s.muster.level .restoring .allClear false false s.muster.saved
      s.muster.saved epoch)
    ∃ t, exec (.allClear tag []) s = .next t ∧
      t.muster = { s.muster with
        drill := { s.muster.drill with latch := false }
        general := { s.muster.general with latch := false }
        level := level
        mode := s.muster.saved
        coverage := none
        alertDue := ⟨none, none, none, none⟩
        restoreStart := some s.clock.u } ∧
      t.link = (if shown then cleared else cleared.report (.restoreDone s.seconds 0)).reply ⟨0xA2, tag, .done, .empty⟩ ∧
      t.panelsAgree s Panel.apartFromLevel ∧
      t.rerouted s { s.routeEnv with barred := false } ∧ t.decided s .epoch ∧ (∀ i, (t.line i).alert = none) ∧
      (∀ id p q, s.panels.look id = some p → t.panels.look id = some q → q.content.rotation =
        p.content.rotation.map fun r => { r with due := some (s.clock.u + 1000 * s.params.dwell) }) ∧
      (∀ id p, t.panels.look id = some p → p.content.inUse.alert = false ∧
        (p.decl.kind.isScreen = true →
          p.line.rest = restBand s.params (s.clock.u - p.line.lastPresence.getD p.line.origin))) ∧
      (∀ id p q, s.panels.look id = some p → t.panels.look id = some q → pollAfterLevel s.clock.u p q) ∧
      (∃ u : State, t = u.settle s ∧ u.decidedInOrder s ∧ u.jobsKept s ∧
        u.entriesMade { s with lines := .build fun i => { s.line i with
          alert := none
          sweepDue := if ¬ shown ∧ s.muster.saved = .night then some (s.clock.u + 1000 * s.params.sweepInterval)
            else (s.line i).sweepDue } } fun _ => false) ∧
      t = { s with
        epoch := epoch
        panels := t.panels
        lines := t.lines
        muster := t.muster
        link := t.link }) ∧
  ∀ (c : Instr) (s t : State), exec c s = .next t → s.muster.level.alarmed = true → t.muster.level.alarmed = false →
    (∃ tag body, c = .allClear tag body) ∨ ∃ a b d e, c = .startUp a b d e

/-- The muster unit's timers. The coverage deadline reports a record that is not complete, once. A general alert falls
due again 10 s later and is broadcast at the line's first free moment; one made due while another is pending leaves one
pending, with the later level. The exchange of a broadcast ends with its frame; when that is, the command says (log
25), and without a broadcast in flight it changes nothing (log 1). The arbiter picks once, at the end of the event: the
model's reading (log 16). -/
def Obligations.MusterTimers : Prop :=
  (∀ (s : State) (c : Coverage), s.muster.coverage = some c → c.deadline ≤ s.clock.u →
    let live := s.panels.filter fun e => e.2.line.state.inService
    let missing := live.filter fun e => e.2.content.shown.banner ≠ some c.level
    (c.short = true ∨ c.complete = true → exec .coverageDeadline s = .next s) ∧
    (c.short = false → c.complete = false → exec .coverageDeadline s = .next { s with
      muster := { s.muster with coverage := some { c with short := true } }
      link := s.link.report (.coverageShort s.seconds c.level live.length (live.length - missing.length)
        (s.panels.filter fun e => e.2.line.state = .fault).length
        (s.panels.filter fun e => e.2.line.state = .absent).length missing.length
        ((missing.map (·.1)).take 16)) })) ∧
  (∀ (i : Fin 4) (d : Nat) (a : AlertLevel) (s : State), s.muster.alertDue.get i = some d → d ≤ s.clock.u →
    s.muster.level = a.level →
    let m : Muster := { s.muster with alertDue := s.muster.alertDue.set i (some (d + 10000)) }
    ((s.line i).exch = none → (s.line i).job = none → (s.line i).alert = none → exec (.generalAlertDue i) s = .next
      { s with
      muster := m
      lines := s.lines.set i { s.line i with exch := some ⟨.generalAlert a, 127, false, false⟩ } }) ∧
    ((s.line i).exch.isSome ∨ (s.line i).job.isSome → exec (.generalAlertDue i) s = .next { s with
      muster := m
      lines := s.lines.set i { s.line i with alert := some a } })) ∧
  ∀ (i : Fin 4) (s : State),
    ((∀ x, (s.line i).exch = some x → ∀ a, x.frame ≠ .generalAlert a) →
      exec (.generalAlertSent i) s = .next s) ∧
    ∀ a k o m, (s.line i).exch = some ⟨.generalAlert a, k, o, m⟩ → (s.line i).job = none →
      exec (.generalAlertSent i) s = .next ((s.setLine i { s.line i with exch := none }).arbitrate i)

/-! ### Timers -/

/-- The eight timer rows act at their due times: never before, and not without one. Bringing run time forward within
the present second, and leaving the state as it is when the time has not come, are the model's choices (log 1, log 3).
-/
def Obligations.TimerRows : Prop :=
  (∀ id, timerRow (.rotationStep id) fun s =>
    if s.muster.level.alarmed then none else (s.panels.look id).bind fun p => p.content.rotation.bind (·.due)) ∧
  (∀ i, timerRow (.alarmDebounceExpiry i) fun s => (s.muster.input i).debounce.map (· + 200)) ∧
  timerRow .coverageDeadline (fun s => (s.muster.coverage.filter fun c => !c.short).map (·.deadline)) ∧
  (∀ i, timerRow (.generalAlertDue i) fun s => s.muster.alertDue.get i) ∧
  (∀ id, timerRow (.pollDue id) fun s => (s.panels.look id).bind (·.line.nextPoll)) ∧
  (∀ id, timerRow (.updateTimeout id) fun s =>
    (s.panels.look id).bind fun p => if p.line.state = .updating then p.line.deadline else none) ∧
  (∀ i, timerRow (.heldSlotRelease i) fun s => (s.line i).held.min?) ∧
  ∀ i, timerRow (.sweepStep i) fun s => (s.line i).sweepDue

/-! ### The arbiter and draw jobs -/

/-- What the arbiter does on a free line (R110): an eligible ALERT entry, then the poll of an UPDATING panel, then an
eligible entry of another class, then the poll of a LIVE panel, then a probe, each taken only when none of the earlier
exists. A granted entry that needs no drawing any more is discarded, and the arbiter picks again. A line with an exchange
or a job waits, and a pending general alert goes first. No other line changes. It picks at a due poll or probe, and at
the end of an event on each idle line that the event gave work: an exchange or job ended, an entry made, a slot freed, a
general alert made due; that it picks once, at the end, is the model's reading (log 16). The draw decision behind an
entry: a panel that needs drawing and may be queued joins the tail of its need class; an entry of a lower class moves to
that tail, one of the same or a higher class keeps its place, and a forced draw sets the force-full flag. -/
def Obligations.ArbiterOrder : Prop :=
  (∀ p : Panel,
    let differs := p.visible ≠ p.content.shown.set
    let marked := fun (c : Comp) (k : DrawClass) => p.visible.has c = true ∧ p.content.dirty.get c = some k
    (p.needsDraw = true ↔ differs ∨ ∃ c k, marked c k) ∧
    (p.visible.alert = true → p.needClass = .alert) ∧
    (p.visible.alert = false →
      (∀ c k, marked c k → k.rank ≤ p.needClass.rank) ∧ (differs → DrawClass.content.rank ≤ p.needClass.rank) ∧
      (p.needsDraw = true → (∃ c, marked c p.needClass) ∨ differs ∧ p.needClass = .content))) ∧
  (∀ (l : LineUnit) (id : Nat) (p : Panel) (forced : Bool),
    let need := p.needClass
    let joins := fun (q : List Entry) (full : Bool) => ∀ a b, q = a ++ b →
      (∀ x ∈ a, need.rank ≤ x.cls.rank) → (∀ x, b.head? = some x → x.cls.rank < need.rank) →
      l.decideFor id p forced = { l with queue := a ++ ⟨id, need, full⟩ :: b }
    (p.needsDraw = false ∨ p.line.state = .absent ∨ p.line.state = .fault → l.decideFor id p forced = l) ∧
    (p.needsDraw = true → p.line.state = .live ∨ p.line.state = .serving ∨ p.line.state = .updating →
      ((∀ e ∈ l.queue, e.panel ≠ id) → joins l.queue forced) ∧
      ∀ x e y, l.queue = x ++ e :: y → e.panel = id → (∀ z ∈ x ++ y, z.panel ≠ id) →
        (e.cls.rank < need.rank → joins (x ++ y) (e.full || forced)) ∧
        (need.rank ≤ e.cls.rank →
          l.decideFor id p forced = { l with queue := x ++ { e with full := e.full || forced } :: y }))) ∧
  (∀ (k d : Nat) (p : Panel) (s : State), s.panels.look k = some p → p.line.nextPoll = some d → d ≤ s.clock.u →
    exec (.pollDue k) s = .next (s.arbitrate (lineOf k))) ∧
  (∀ u s : State, u.settle s = ([0, 1, 2, 3] : List (Fin 4)).foldl (fun t i =>
    if (u.line i).exch = none ∧ (u.line i).job = none ∧
        ((s.line i).exch.isSome ∨ (s.line i).job.isSome ∨ (u.line i).queue ≠ (s.line i).queue ∨
          (u.line i).slots < (s.line i).slots ∨ (u.line i).alert.isSome ∧ (u.line i).alert ≠ (s.line i).alert)
    then t.arbitrate i else t) u) ∧
  ∀ (i : Fin 4) (s : State), s.panels.sorted = true →
    let l := s.line i
    let alert := fun e : Entry => e.cls = .alert
    let other := fun e : Entry => e.cls ≠ .alert
    let away := fun x : LineState => x = .absent ∨ x = .fault
    let grant := fun (e : Entry) (q : Panel) => s.arbitrate i = { s with
      panels := s.panels.put e.panel { q with
        content := { q.content with jobClass := some e.cls, jobForced := e.full, jobPage := none }
        line := { q.line with state := .serving, nextPoll := none } }
      lines := s.lines.set i { l with
        queue := l.queue.filter fun x => x.panel ≠ e.panel
        exch := some ⟨.select false, e.panel, false, false⟩
        job := some ⟨e.panel, decide (q.decl.kind = .door), 0, none, false⟩ } }
    let skip := fun e : Entry => s.arbitrate i = ({ s with
      lines := s.lines.set i { l with queue := l.queue.filter fun x => x.panel ≠ e.panel } } : State).arbitrate i
    let send := fun (f : LineFrame) (id : Nat) => s.arbitrate i = { s with
      lines := s.lines.set i { l with exch := some ⟨f, id, false, false⟩ } }
    (s.arbitrate i).otherLines s i ∧
    (l.exch.isSome ∨ l.job.isSome → s.arbitrate i = s) ∧
    (l.exch = none → l.job = none →
      (∀ a, l.alert = some a → s.arbitrate i = { s with
        lines := s.lines.set i { l with exch := some ⟨.generalAlert a, 127, false, false⟩, alert := none } }) ∧
      (l.alert = none →
        (∀ e q, s.eligibleFirst i alert e q → if e.full || q.needsDraw then grant e q else skip e) ∧
        (s.noneEligible i alert →
          (∀ id q, s.dueFirst i (· = .updating) id q → send (.poll (s.brightness q)) id) ∧
          (s.noneDue i (· = .updating) →
            (∀ e q, s.eligibleFirst i other e q → if e.full || q.needsDraw then grant e q else skip e) ∧
            (s.noneEligible i other →
              (∀ id q, s.dueFirst i (· = .live) id q → send (.poll (s.brightness q)) id) ∧
              (s.noneDue i (· = .live) →
                (∀ id q, s.dueFirst i away id q → send (.select true) id) ∧
                (s.noneDue i away → s.arbitrate i = s)))))))

/-- What every good answer hands on: its buttons at a door, in order, a DND button marking PLATE with class CONTENT and
queueing the door, then presence, ambient light and rest level, by the bands of the quiet time, then the next poll due by
the interval of the panel's state; and the brightness that the next frame to the panel will carry. Nothing else of the
panel's record changes. -/
def Obligations.AnswerHandedOn : Prop :=
  ∀ (id : Nat) (r : Readings) (s : State) (p : Panel), s.panels.look id = some p →
    let t := s.handOn id r
    let dnd := fun d : Bool => if (r.buttons.filter (· = .dnd)).length % 2 = 0 then d else !d
    let present := if 0 < r.presence then some s.clock.u else p.line.lastPresence
    ∃ q, t.panels.look id = some q ∧
      q.content.cabin = p.content.cabin.map (fun c => { c with dnd := dnd c.dnd }) ∧
      (t.decidedAt s .other id fun _ _ c =>
        if c = .plate ∧ .dnd ∈ r.buttons ∧ p.content.cabin.isSome = true then some .content else none) ∧
      q = { p with
        content := { p.content with cabin := q.content.cabin, dirty := q.content.dirty }
        line := { p.line with
          ambient := q.line.ambient, lastPresence := q.line.lastPresence, rest := q.line.rest
          nextPoll := q.line.nextPoll } } ∧
      (.dnd ∈ r.buttons → p.content.cabin.isSome → q.needsDraw = true → p.line.state.queueable = true →
        t.queued id p q) ∧
      q.line.ambient = min r.ambient 10 ∧ q.line.lastPresence = present ∧
      q.line.rest = (if p.decl.kind = .door ∨ s.muster.level.alarmed then p.line.rest
        else if 0 < r.presence then .active else restBand s.params (s.clock.u - present.getD p.line.origin)) ∧
      q.line.nextPoll = (match p.line.state with
        | .updating => some (s.clock.u + 250)
        | .live => some (s.clock.u + if p.decl.kind = .door then 20000 else match q.line.rest with
            | .active => 1000
            | .rest1 => 2000
            | .rest2 => 4000
            | .rest3 => 8000)
        | .serving => none
        | .absent => some (s.clock.u + 5000)
        | .fault => some (s.clock.u + 30000)) ∧
      t.link = (match p.content.cabin with
        | some c => (pressReports s.clock.m s.seconds id c.dnd r.buttons).foldl Link.report s.link
        | none => s.link) ∧
      (r.buttons = [] ∨ p.content.cabin = none → q.content = p.content ∧ t.lines = s.lines) ∧
      t.othersAgree s id (fun x => x) ∧ t.entriesMade s (fun _ => false) ∧
      t = { s with panels := t.panels, lines := t.lines, link := t.link } ∧
      (∀ quiet, restBand s.params quiet = if quiet < 1000 * s.params.runTime then .active
        else if quiet < 1000 * s.params.runTime + 1000 * s.params.rest1 then .rest1
        else if quiet < 1000 * s.params.runTime + 1000 * s.params.rest1 + 1000 * s.params.rest2 then .rest2
        else .rest3) ∧
      let v := match q.line.rest, s.muster.mode with
        | .active, .day => 100
        | .active, .night => 60
        | .rest1, .day => 70
        | .rest1, .night => 30
        | .rest2, .day => 40
        | .rest2, .night => 10
        | .rest3, _ => 0
      t.brightness q = if q.decl.kind = .door then 0
        else if s.muster.level.alarmed then 100
        else if v = 0 then 0
        else max 5 (v * (40 + 6 * q.line.ambient) / 100)

/-- What a line sends for an exchange is laid out as 12.3 and R169 say: start byte, address (127 for a broadcast),
type, payload length, payload and CRC-16, low byte first; a page's payload begins with its header. A SELECT answer of a
job of the wrong kind sends the panel to FAULT and discards the job. Any other is handed on and the page composed
(R93): full when a full page is called for, else the DIRTY components that are shown; with nothing to draw the job
ends, and the panel is LIVE. The page has the sections of R94, truncated as R95 says (the bytes of some fields are the
model's reading or free values, log 6 and log 39). It is sent, or ABORT when an ALERT entry waits (R121). The arbiter
picks once, at the end of the event: the model's reading (log 16). -/
def Obligations.SelectAnswer : Prop :=
  (∀ (i : Fin 4) (s : State) (x : Exchange), (s.line i).exch = some x → ∃ (type : Nat) (payload : Bytes),
    let address := if type = 6 then 127 else x.panel % 64
    let covered : Bytes :=
      BitVec.ofNat 8 address :: BitVec.ofNat 8 type :: BitVec.ofNat 8 (payload.length % 256) ::
        BitVec.ofNat 8 (payload.length / 256) :: payload
    s.lineOut i = some (0xC3 :: covered ++ [(crc16 covered).setWidth 8, (crc16 covered >>> 8).setWidth 8]) ∧
    (∀ probe, x.frame = .select probe → type = 1 ∧ payload = []) ∧
    (∀ g b, x.frame = .page g b → type = 2 ∧ ∃ sections, payload =
      g.visible.bytes ++ g.carried.bytes ++ [match g.banner with
        | none => 0
        | some .drill => 1
        | some .muster => 2, BitVec.ofNat 8 g.lang, BitVec.ofNat 8 b, if g.full then 1 else 0,
        BitVec.ofNat 8 (g.length % 256), BitVec.ofNat 8 (g.length / 256)] ++ sections) ∧
    (x.frame = .commit → type = 3 ∧ payload = []) ∧
    (∀ b, x.frame = .poll b → type = 4 ∧ payload = [BitVec.ofNat 8 b]) ∧
    (x.frame = .abort → type = 5 ∧ payload = []) ∧
    ∀ a, x.frame = .generalAlert a → type = 6 ∧ payload = [if a = .drill then 1 else 2]) ∧
  ∀ (i : Fin 4) (id : Nat) (kind held flags presence ambient : Byte) (events : Bytes) (s : State) (p : Panel),
    s.awaiting i (.select false) id p → events.length ≤ 8 →
    let frame := panelFrame (dropOf id) 0x81
      (kind :: held :: flags :: presence :: ambient :: BitVec.ofNat 8 events.length :: events)
    (kind.toNat ≠ p.decl.kind.code → exec (.selectAnswer i frame) s = .next ((({ s with
      panels := s.panels.put id { p with
        content := { p.content with jobClass := none, jobForced := false, jobPage := none }
        line := { p.line with
          state := .fault, reason := some .kindMismatch, commitTime := none, deadline := none
          nextPoll := some (s.clock.u + 30000) } }
      lines := s.lines.set i { s.line i with
        exch := none, job := none, queue := (s.line i).queue.filter fun e => e.panel ≠ id }
      link := s.link.report (.panelState id .fault (some .kindMismatch) (some kind) s.seconds) } :
        State).musterNotice).arbitrate i)) ∧
    (kind.toNat = p.decl.kind.code →
      let fresh := flags.getLsbD 0
      let h := (s.setLine i { s.line i with exch := none }).handOn id
        { buttons := buttonsOf events, presence := presence.toNat, ambient := ambient.toNat }
      let heldSet : CompSet := if fresh then .nil else .ofByte held
      ∃ p1, h.panels.look id = some p1 ∧
        let v := p1.visible
        let shown := { p1.content.shown with held := heldSet }
        let full := p1.content.jobForced = true ∨ (p1.line.partialCount = 16 ∧ v.alert = false) ∨
          p1.content.shown.set = .nil ∨ fresh = true ∨ v.diff (p1.content.dirty.comps.union heldSet) ≠ .nil
        let carried := if full then v else v.inter p1.content.dirty.comps
        let idle := ¬ full ∧ carried = .nil ∧ v = p1.content.shown.set
        let page : JobPage := {
          visible := v, banner := if v.alert then s.muster.level.banner else none, lang := p1.wantedLang
          full := decide full, removed := .nil }
        let done : Panel := { p1 with
          content := { p1.content with shown := shown, jobClass := none, jobForced := false, jobPage := none }
          line := { p1.line with
            state := .live, commitTime := none, deadline := none
            nextPoll := some (s.clock.u + if p1.decl.kind = .door then 20000 else p1.line.rest.interval) } }
        let drawn : Panel := { p1 with content := { p1.content with
          shown := shown
          dirty := p1.content.dirty.remove carried
          inFlight := p1.content.inFlight.union carried
          jobPage := some page } }
        let abort := drawn.content.jobClass ≠ some .alert ∧ v.alert = false ∧ ∃ e ∈ (h.line i).queue, e.cls = .alert
        (idle → exec (.selectAnswer i frame) s = .next (({ h with
          panels := h.panels.put id done
          lines := h.lines.set i { h.line i with job := none } } : State).arbitrate i)) ∧
        h.pageSays drawn page carried (h.buildPage drawn page carried) ∧
        (¬ idle → exec (.selectAnswer i frame) s = .next { h with
          panels := h.panels.put id drawn
          lines := h.lines.set i { h.line i with
            job := (h.line i).job.map fun j => { j with brightness := some (h.brightness drawn) }
            exch := some ⟨if abort then .abort
              else .page (h.buildPage drawn page carried) (h.brightness drawn), id, false, false⟩ } }))

/-- PAGE answers, and the acknowledgements of COMMIT and ABORT: OK is followed by COMMIT, a first NEED_FULL by the page
composed again as a full one, its sections as R94 and R95 say, and anything else fails the job. COMMIT acknowledged,
the panel is UPDATING and a DOOR takes a slot; ABORT acknowledged, the job ends without a miss. ABORT takes the place
of a frame as R121 says. The arbiter picks once, at the end of the event: the model's reading (log 16). -/
def Obligations.JobAnswers : Prop :=
  ∀ (i : Fin 4) (id : Nat) (s : State) (p : Panel),
    let free := s.setLine i { s.line i with exch := none }
    let abort := fun v : CompSet =>
      p.content.jobClass ≠ some .alert ∧ v.alert = false ∧ ∃ e ∈ (s.line i).queue, e.cls = .alert
    (∀ g b j page, s.awaiting i (.page g b) id p → p.line.state = .serving → (s.line i).job = some j →
      p.content.jobPage = some page →
      let answer := fun b : Byte => exec (.pageAnswer i (panelFrame (dropOf id) 0x82 [b])) s
      let full := { page with full := true }
      let q : Panel := { p with content := { p.content with
        dirty := p.content.dirty.remove (page.visible.diff p.content.inFlight)
        inFlight := p.content.inFlight.union page.visible
        jobPage := some full } }
      answer 0 = .next { s with lines := s.lines.set i { s.line i with
        exch := some ⟨if abort page.visible then .abort else .commit, id, false, false⟩ } } ∧
      s.pageSays q full page.visible (s.buildPage q full page.visible) ∧
      (j.needFulls = 0 → answer 1 = .next { s with
        panels := s.panels.put id q
        lines := s.lines.set i { s.line i with
          job := some { j with needFulls := 1, brightness := some (s.brightness q) }
          exch := some ⟨if abort page.visible then .abort
            else .page (s.buildPage q full page.visible) (s.brightness q), id, false, false⟩ } }) ∧
      (j.needFulls ≠ 0 → answer 1 = .next ((free.jobFails i id p).arbitrate i)) ∧
      answer 2 = .next ((free.jobFails i id p).arbitrate i)) ∧
    (s.awaiting i .commit id p → exec (.commitAck i (panelFrame (dropOf id) 0x83 [])) s = .next (({ s with
      panels := s.panels.put id { p with line := { p.line with
        state := .updating
        commitTime := some s.clock.u
        deadline := some (s.clock.u + if p.decl.kind = .door then 8000 else 1000)
        nextPoll := some (s.clock.u + 250)
        brightness := match (s.line i).job with
          | some ⟨_, _, _, some b, _⟩ => some b
          | _ => p.line.brightness } }
      lines := s.lines.set i { s.line i with
        exch := none
        job := none
        slots := if p.decl.kind = .door then (s.line i).slots + 1 else (s.line i).slots } } : State).arbitrate i)) ∧
    (s.awaiting i .abort id p → p.line.state = .serving →
      exec (.abortAck i (panelFrame (dropOf id) 0x85 [])) s =
        .next ((free.endFailed i id p p.line.miss false).arbitrate i))

/-- A job that ends without completion: what it carried returns to the DIRTY set with the job class, the slot of an
UPDATING door is freed, and the panel is LIVE with its draw decision. A failure counts a miss; the third misses sends
the panel to FAULT, without its entry and with a report. That a forced entry is taken again through the draw decision, so
only for a panel that needs drawing, is read from R91 and R98 (log 22). -/
def Obligations.JobEnds : Prop :=
  ∀ (i : Fin 4) (id n : Nat) (s : State) (p : Panel),
    let updating := p.line.state = .updating
    let l : LineUnit := { s.line i with
      job := if updating then (s.line i).job else none
      slots := if updating ∧ p.decl.kind = .door then (s.line i).slots - 1 else (s.line i).slots }
    let returned : Marks := match p.content.jobClass with
      | some c => p.content.dirty.addAll (p.content.inFlight.marks c)
      | none => p.content.dirty
    let content : Content := { p.content with
      dirty := returned, inFlight := .nil, jobClass := none, jobForced := false, jobPage := none }
    let live : Panel := { p with
      content := content
      line := { p.line with
        state := .live, miss := n, commitTime := none, deadline := none
        nextPoll := some (s.clock.u + if p.decl.kind = .door then 20000 else p.line.rest.interval) } }
    let fault : Panel := { p with
      content := content
      line := { p.line with
        state := .fault, reason := some .misses, miss := n, commitTime := none, deadline := none
        nextPoll := some (s.clock.u + 30000) } }
    s.endFailed i id p n false = { s with
      panels := s.panels.put id live
      lines := s.lines.set i (l.decideFor id live p.content.jobForced) } ∧
    s.endFailed i id p n true = ({ s with
      panels := s.panels.put id fault
      lines := s.lines.set i { l with queue := l.queue.filter fun e => e.panel ≠ id }
      link := s.link.report (.panelState id .fault (some .misses) none s.seconds) } : State).musterNotice ∧
    s.jobFails i id p = s.endFailed i id p (p.line.miss + 1) (decide (3 ≤ p.line.miss + 1)) ∧
    ∀ c, returned.get c = match p.content.jobClass with
      | some k => if p.content.inFlight.has c then some (match p.content.dirty.get c with
          | some o => if o.rank < k.rank then k else o
          | none => k) else p.content.dirty.get c
      | none => p.content.dirty.get c

/-- A completion: what the panel now shows is the job page, its held belief what the page carried, or that added to
what it held in the same language; a full page starts the count of partial ones anew. The slot of a door is freed, the
draw decision taken, and the muster unit told. A component that a redeclaration has removed from the fitted set since the
composition leaves the shown set, one put back since included (R97); after a NEED_FULL the first composition counts, which
is read from R97 and 6.5 (log 38). -/
def Obligations.Completion : Prop :=
  ∀ (i : Fin 4) (id : Nat) (s : State) (p : Panel) (page : JobPage), p.content.jobPage = some page →
    let c := p.content
    let q : Panel := { p with
      content := { c with
        inFlight := .nil, jobClass := none, jobForced := false, jobPage := none
        shown := {
          set := page.visible.diff page.removed
          banner := page.banner
          lang := some page.lang
          held := if page.full ∨ c.shown.lang ≠ some page.lang then c.inFlight
            else c.shown.held.union c.inFlight } }
      line := { p.line with
        state := .live, miss := 0, commitTime := none, deadline := none
        partialCount := if page.full then 0 else min (p.line.partialCount + 1) 16
        lastFull := if page.full then some s.clock.u else p.line.lastFull
        nextPoll := some (s.clock.u + if p.decl.kind = .door then 20000 else p.line.rest.interval) } }
    s.completion i id p = ({ s with
      panels := s.panels.put id q
      lines := s.lines.set i (({ s.line i with
        slots := if p.decl.kind = .door then (s.line i).slots - 1 else (s.line i).slots } : LineUnit).decideFor id q
          false) } : State).musterNotice

/-- What the muster unit makes of a completion or a change of the panels in service: the counts of its record, with
one report when every live panel has come to show the banner, and the end of RESTORING, with its report and the sweep
open at night, when no panel in service shows the muster page. The test for that end alone moves nothing else: no draw
decision is taken at it (log 37). -/
def Obligations.MusterNotice : Prop :=
  ∀ s : State,
    let live := s.panels.filter fun e => e.2.line.state.inService
    let covered := fun c : Coverage => (live.filter fun e => e.2.content.shown.banner = some c.level).length
    let now := fun c : Coverage => decide (covered c = live.length ∧ 0 < live.length)
    let ends := s.muster.level = .restoring ∧ ∀ e ∈ live, e.2.content.shown.set.alert = false
    let counted := match s.muster.coverage with
      | some c => if now c = true ∧ c.complete = false then
          s.link.report (.coverageComplete s.seconds c.level live.length (covered c) ((s.clock.u - c.start) / 1000)
            (s.panels.filter fun e => e.2.line.state = .fault).length
            (s.panels.filter fun e => e.2.line.state = .absent).length)
        else s.link
      | none => s.link
    s.musterNotice = { s with
      muster := { s.muster with
        level := if ends then .normal else s.muster.level
        coverage := s.muster.coverage.map fun c => { c with
          live := live.length, covered := covered c, complete := c.complete || now c } }
      lines := if ends ∧ s.muster.mode = .night then
          .build fun i => { s.line i with sweepDue := some (s.clock.u + 1000 * s.params.sweepInterval) }
        else s.lines
      link := if ends then
          counted.report (.restoreDone s.seconds ((s.clock.u - s.muster.restoreStart.getD s.clock.u) / 1000))
        else counted } ∧
    s.restoreTest = if ends then { s with
      muster := { s.muster with level := .normal }
      lines := if s.muster.mode = .night then
          .build fun i => { s.line i with sweepDue := some (s.clock.u + 1000 * s.params.sweepInterval) }
        else s.lines
      link := s.link.report (.restoreDone s.seconds
        ((s.clock.u - s.muster.restoreStart.getD s.clock.u) / 1000)) } else s

/-- A POLL answer: it completes the job of an UPDATING panel that is not busy, and ends the misses of a LIVE one; it is
handed on in every case, and the line is free again. One that finds the panel in FAULT, after an update timeout,
changes no miss count (log 17). The arbiter picks once, at the end of the event: the model's reading (log 16). -/
def Obligations.PollAnswer : Prop :=
  ∀ (i : Fin 4) (id b : Nat) (flags presence ambient : Byte) (events : Bytes) (s : State) (p : Panel),
    s.awaiting i (.poll b) id p → (s.line i).job = none → events.length ≤ 8 →
    let frame := panelFrame (dropOf id) 0x84
      (flags :: presence :: ambient :: BitVec.ofNat 8 events.length :: events)
    let r : Readings := { buttons := buttonsOf events, presence := presence.toNat, ambient := ambient.toNat }
    let busy := flags.getLsbD 0
    let free := s.setLine i { s.line i with exch := none }
    let p1 : Panel := { p with line := { p.line with lastBusy := some busy, brightness := some b } }
    (p.line.state = .updating → busy = false →
      exec (.pollAnswer i frame) s = .next (((free.completion i id p1).handOn id r).arbitrate i)) ∧
    (p.line.state = .updating ∧ busy = true ∨ p.line.state = .fault →
      exec (.pollAnswer i frame) s = .next (((free.setPanel id p1).handOn id r).arbitrate i)) ∧
    (p.line.state = .live → exec (.pollAnswer i frame) s =
      .next (((free.setPanel id { p1 with line := { p1.line with miss := 0 } }).handOn id r).arbitrate i))

/-- A probe answer: the right kind joins the panel, or recovers it from FAULT, with its report, the answer handed on
and every component it shows marked with class CONTENT; the wrong kind sends it to FAULT, reported unless it is there
already. The arbiter picks once, at the end of the event: the model's reading (log 16). -/
def Obligations.ProbeAnswer : Prop :=
  ∀ (i : Fin 4) (id : Nat) (kind held flags presence ambient : Byte) (events : Bytes) (s : State) (p : Panel),
    s.awaiting i (.select true) id p → (s.line i).job = none → events.length ≤ 8 →
    let frame := panelFrame (dropOf id) 0x81
      (kind :: held :: flags :: presence :: ambient :: BitVec.ofNat 8 events.length :: events)
    let r : Readings := { buttons := buttonsOf events, presence := presence.toNat, ambient := ambient.toNat }
    let live : Panel := { p with line := { p.line with
      state := .live, reason := none, miss := 0, commitTime := none, deadline := none
      nextPoll := some (s.clock.u + if p.decl.kind = .door then 20000 else p.line.rest.interval) } }
    let fault : Panel := { p with line := { p.line with
      state := .fault, reason := some .kindMismatch, commitTime := none, deadline := none
      nextPoll := some (s.clock.u + 30000) } }
    (kind.toNat = p.decl.kind.code → ∃ t q, exec (.probeAnswer i frame) s = .next t ∧ t.panels.look id = some q ∧
      q.line.miss = 0 ∧ q.line.reason = none ∧ (q.line.state = .live ∨ q.line.state = .serving) ∧
      (∀ c, p.visible.has c = true →
        ∃ k, q.content.dirty.get c = some k ∧ DrawClass.content.rank ≤ k.rank) ∧
      t = (((({ s with
        panels := s.panels.put id live
        lines := s.lines.set i { s.line i with exch := none }
        link := s.link.report (.panelState id (if p.line.state = .fault then .recovered else .joined) none none
          s.seconds) } : State).handOn id r).forcedDraw id .content).musterNotice).arbitrate i) ∧
    (kind.toNat ≠ p.decl.kind.code → exec (.probeAnswer i frame) s = .next (({ s with
      panels := s.panels.put id fault
      lines := s.lines.set i { s.line i with
        exch := none, queue := (s.line i).queue.filter fun e => e.panel ≠ id }
      link := if p.line.state = .fault then s.link
        else s.link.report (.panelState id .fault (some .kindMismatch) (some kind) s.seconds) } : State).arbitrate i))

/-- Missing answers: a frame that is no good answer of the exchange in flight makes its answer missing, no answer
counts from then on, and the exchange ends when its timeout runs out (R102, log 14). Then a LIVE panel's POLL counts a
miss and the third sends it to FAULT; a probe is tried again at its interval; a frame of a job fails the job, and so
does a panel that is still UPDATING at its deadline. A broadcast awaits no answer; a line without an exchange has no
timeout to run out, and the command then changes nothing (log 1). A PAGE answer whose byte is none of the three that
12.3 numbers is no good answer: the model's reading (log 15). The arbiter picks once, at the end of the event: the
model's reading (log 16). -/
def Obligations.Timeouts : Prop :=
  (∀ (i : Fin 4) (frame : Bytes) (c : Instr) (s : State), c ∈ answerRows i frame →
    (∀ x, (s.line i).exch = some x → (∀ a, x.frame ≠ .generalAlert a) → ¬ x.answeredBy frame →
      exec c s = .next { s with
        lines := s.lines.set i { s.line i with exch := some { x with missed := true } } }) ∧
    (∀ x, (s.line i).exch = some x → x.missed = true → exec c s = .next s) ∧
    ((∀ x, (s.line i).exch = some x → ∃ a, x.frame = .generalAlert a) → exec c s = .next s)) ∧
  ∀ (i : Fin 4) (id : Nat) (m : Bool) (s : State) (p : Panel),
    let free := s.setLine i { s.line i with exch := none }
    let after := exec (.answerTimeout i) s
    (∀ f, f = .select false ∨ f = .commit ∨ (∃ g b, f = .page g b) → s.exchanging i f id p m → p.line.state = .serving →
      after = .next ((free.jobFails i id p).arbitrate i)) ∧
    (s.exchanging i .abort id p m → p.line.state = .serving →
      after = .next ((free.endFailed i id p (p.line.miss + 1) (decide (3 ≤ p.line.miss + 1))).arbitrate i)) ∧
    (∀ b, s.exchanging i (.poll b) id p m → (s.line i).job = none →
      (p.line.state = .updating → after = .next ((free.jobFails i id p).arbitrate i)) ∧
      (p.line.state = .live → p.line.miss < 2 → after = .next ((free.setPanel id { p with line := { p.line with
        miss := p.line.miss + 1
        nextPoll := some (s.clock.u + if p.decl.kind = .door then 20000 else p.line.rest.interval) } }).arbitrate i)) ∧
      (p.line.state = .live → 2 ≤ p.line.miss → after = .next ((({ s with
        panels := s.panels.put id { p with line := { p.line with
          state := .fault, reason := some .misses, miss := p.line.miss + 1, commitTime := none, deadline := none
          nextPoll := some (s.clock.u + 30000) } }
        lines := s.lines.set i { s.line i with
          exch := none, queue := (s.line i).queue.filter fun e => e.panel ≠ id }
        link := s.link.report (.panelState id .fault (some .misses) none s.seconds) } :
          State).musterNotice).arbitrate i))) ∧
    (s.exchanging i (.select true) id p m → (s.line i).job = none →
      (p.line.state = .absent → after = .next ((free.setPanel id
        { p with line := { p.line with nextPoll := some (s.clock.u + 5000) } }).arbitrate i)) ∧
      (p.line.state = .fault → after = .next ((free.setPanel id
        { p with line := { p.line with nextPoll := some (s.clock.u + 30000) } }).arbitrate i))) ∧
    ((∀ x, (s.line i).exch = some x → ∃ a, x.frame = .generalAlert a) → after = .next s) ∧
    ∀ d, s.panels.look id = some p → p.line.state = .updating → p.line.deadline = some d → d ≤ s.clock.u →
      exec (.updateTimeout id) s = .next ((s.jobFails (lineOf id) id p).arbitrate (lineOf id))

/-- An exchange whose panel has been withdrawn: ABORT follows its SELECT or PAGE, answered or not; a COMMIT that is
acknowledged takes the slot of a door and holds it for 8 s; the line is free after anything else, an ABORT that was in
flight already included (log 40). The arbiter picks once, at the end of the event: the model's reading (log 16). -/
def Obligations.WithdrawnExchange : Prop :=
  ∀ (i : Fin 4) (id : Nat) (x : Exchange) (s : State), (s.line i).exch = some x → x.panel = id → x.orphan = true →
    let abort : State := { s with lines := s.lines.set i { s.line i with exch := some ⟨.abort, id, true, false⟩ } }
    let free := (s.setLine i { s.line i with exch := none, job := none }).arbitrate i
    let held := ({ s with lines := s.lines.set i { s.line i with
      exch := none, job := none, slots := (s.line i).slots + 1
      held := (s.line i).held ++ [s.clock.u + 8000] } } : State).arbitrate i
    let after := exec (.answerTimeout i) s
    (∀ (kind h flags presence ambient : Byte) (events : Bytes), x.frame = .select false → events.length ≤ 8 →
      after = .next abort ∧ (x.missed = false → exec (.selectAnswer i (panelFrame (dropOf id) 0x81
        (kind :: h :: flags :: presence :: ambient :: BitVec.ofNat 8 events.length :: events))) s = .next abort)) ∧
    (∀ g b (a : Byte), x.frame = .page g b → a.toNat ≤ 2 →
      after = .next abort ∧ (x.missed = false → exec (.pageAnswer i (panelFrame (dropOf id) 0x82 [a])) s = .next abort)) ∧
    (x.frame = .commit → ∀ j, (s.line i).job = some j →
      after = .next free ∧ (x.missed = false → exec (.commitAck i (panelFrame (dropOf id) 0x83 [])) s =
        .next (if j.door then held else free))) ∧
    (x.frame = .abort → after = .next free ∧ (x.missed = false →
      exec (.abortAck i (panelFrame (dropOf id) 0x85 [])) s = .next free)) ∧
    (∀ (b : Nat) (flags presence ambient : Byte) (events : Bytes), x.frame = .poll b → events.length ≤ 8 →
      (s.line i).job = none → after = .next free ∧ (x.missed = false → exec (.pollAnswer i (panelFrame (dropOf id) 0x84
        (flags :: presence :: ambient :: BitVec.ofNat 8 events.length :: events))) s = .next free)) ∧
    ∀ (kind h flags presence ambient : Byte) (events : Bytes), x.frame = .select true → events.length ≤ 8 →
      (s.line i).job = none → after = .next free ∧ (x.missed = false → exec (.probeAnswer i (panelFrame (dropOf id) 0x81
        (kind :: h :: flags :: presence :: ambient :: BitVec.ofNat 8 events.length :: events))) s = .next free)

/-- The other commands of a line: the held slot with the earliest release time is freed; a sweep step examines one
drop, goes on round the 64 drops and asks for a forced draw of class UPKEEP of a LIVE door whose last full page is none
or over 20 h old; a stray frame is discarded and changes nothing. That it changes nothing in any state, one that awaits
an answer included, is the model's choice (log 1). The arbiter picks once, at the end of the event: the model's reading
(log 16). -/
def Obligations.LineTimers : Prop :=
  ∀ (i : Fin 4) (s : State),
    (∀ d, d ∈ (s.line i).held → (∀ x ∈ (s.line i).held, d ≤ x) → d ≤ s.clock.u → 0 < (s.line i).slots →
      ∃ rest, (d :: rest).Perm (s.line i).held ∧ exec (.heldSlotRelease i) s = .next ((s.setLine i
        { s.line i with slots := (s.line i).slots - 1, held := rest }).arbitrate i)) ∧
    (∀ d, (s.line i).sweepDue = some d → d ≤ s.clock.u →
      let k := (s.line i).sweepK
      let drop := if s.params.sweepOrder = .sequential then k
        else ((List.range 6).map fun j => if k.testBit j then 2 ^ (5 - j) else 0).sum
      let id := 64 * i.val + drop
      let stale := ∃ p, s.panels.look id = some p ∧ p.decl.kind = .door ∧ p.line.state = .live ∧
        ∀ t, p.line.lastFull = some t → t + 72000000 < s.clock.u
      let next : LineUnit := { s.line i with
        sweepK := (k + 1) % 64, sweepDue := some (d + 1000 * s.params.sweepInterval) }
      (¬ stale → exec (.sweepStep i) s = .next (s.setLine i next)) ∧
      (stale → drop < 64 → ∃ t q p, exec (.sweepStep i) s = .next t ∧ s.panels.look id = some p ∧
        t.panels.look id = some q ∧ q.apartFromMarks = p.apartFromMarks ∧
        (∀ c, q.content.dirty.get c =
          higherMark (p.content.dirty.get c) (if p.visible.has c then some .upkeep else none)) ∧
        (p.visible ≠ .nil → (∃ e ∈ (t.line i).queue, e.panel = id ∧ e.full = true) ∨
          (q.line.state = .serving ∧ q.content.jobForced = true)) ∧
        t.othersAgree s id Panel.apartFromJob ∧ t.otherLines s i ∧
        (∃ u : State, t = u.settle s ∧ u.jobsKept s ∧ u.pollsKept s ∧
          u.entriesMade (s.setLine i next) fun k => decide (k = id)) ∧
        t = { s with panels := t.panels, lines := t.lines })) ∧
    ∀ frame, exec (.strayPanelFrame i frame) s = .next s

/-- LINE_RESET: the line is free and empty, its slots, held slots and sweep pointer 0; each of its panels is ABSENT
with its work returned and its first probe due at once, and keeps what R124 keeps. Nothing of another line changes. The
reply counts every panel declared on the line, an ABSENT one too: the model's reading (log 23). That the arbiter makes
no pick for the line and its due probes is the model's reading too (log 16). -/
def Obligations.LineReset : Prop :=
  ∀ (tag : Byte) (body : Bytes) (s : State) (l : Link), s.link.take ⟨0x28, tag, body⟩ = some l → body.length = 1 →
    (3 < u8 body 0 → exec (.lineReset tag body) s = .next (s.replied l 0xA8 tag .badValue .empty)) ∧
    ∀ i : Fin 4, u8 body 0 = i.val →
      let reset := fun p : Panel => { p with
        content := { p.content with
          dirty := match p.content.jobClass with
            | some c => p.content.dirty.addAll (p.content.inFlight.marks c)
            | none => p.content.dirty
          inFlight := .nil, jobClass := none, jobForced := false, jobPage := none }
        line := { p.line with
          state := .absent, reason := none, miss := 0, nextPoll := some s.clock.u, commitTime := none
          deadline := none, lastBusy := none, rest := .active, brightness := none } }
      let t := ({ s with
        panels := s.panels.map fun e => (e.1, if lineOf e.1 = i then reset e.2 else e.2)
        lines := s.lines.set i { s.line i with
          queue := [], exch := none, job := none, slots := 0, held := [], sweepK := 0, alert := none }
        link := l } : State).musterNotice
      exec (.lineReset tag body) s = .next (t.replied t.link 0xA8 tag .done
        (.count (s.panels.filter fun e => lineOf e.1 = i).length))

/-! ### Queries -/

/-- The four queries answer from the state of the moment and change nothing but the link: STATUS the fields of R161,
PANEL_READ one of the four views of R162, EVENT_READ the record named or the one after it in the table, ROUTE_PROBE a
computation as a GUIDE row would have it, from the previous arrow of the panel's first slot towards the destination.
That the LINK view shows a quiet time of a DOOR too, and counts the places of the queue from 0, is the model's choice
(log 41, log 42), and so is that the seconds of the coverage record, and those of a quiet time, are rounded down
(log 43). -/
def Obligations.Queries : Prop :=
  ∀ (tag : Byte) (body : Bytes) (s : State) (l : Link),
    (s.link.take ⟨0x30, tag, []⟩ = some l →
      let inState := fun (i : Fin 4) (st : LineState) =>
        (s.panels.filter fun e => lineOf e.1 = i ∧ e.2.line.state = st).length
      exec (.status tag []) s = .next (s.replied l 0xB0 tag .done (.status {
        zone := s.params.zone
        kitState := s.store.kitState
        fault := s.store.fault
        checkpoint := s.store.checkpoint.isSome
        r := s.clock.r
        u := s.clock.u / 1000
        clockSet := s.clock.set
        offset := s.clock.offset
        m := s.clock.m
        change := s.clock.change
        drillReading := s.muster.drill.reading
        drillLatch := s.muster.drill.latch
        generalReading := s.muster.general.reading
        generalLatch := s.muster.general.latch
        level := s.muster.level
        mode := s.muster.mode
        saved := s.muster.saved
        coverage := s.muster.coverage.map fun c => {
          level := c.level, sinceStart := (s.clock.u - c.start) / 1000, toDeadline := (c.deadline - s.clock.u) / 1000
          live := c.live, covered := c.covered, complete := c.complete, short := c.short }
        declared := s.panels.length
        alertLines := (([0, 1, 2, 3] : List (Fin 4)).filter fun i => (s.muster.alertDue.get i).isSome).length
        epoch := s.epoch
        events := s.events.length
        bookings := s.bookings.length
        texts := s.phrases.length
        lines := .build fun i => {
          declared := (s.panels.filter fun e => lineOf e.1 = i).length
          absent := inState i .absent
          live := inState i .live
          serving := inState i .serving
          updating := inState i .updating
          fault := inState i .fault
          queue := (s.line i).queue.length
          slots := (s.line i).slots
          held := (s.line i).held.length
          job := (s.line i).job.map (·.panel) }
        reports := s.link.reports.length
        lost := s.link.lost
        gapCount := s.link.gapCount
        crcCount := s.link.crcCount
        overflowCount := s.link.overflowCount }))) ∧
    (body.length = 3 → s.link.take ⟨0x31, tag, body⟩ = some l →
      (255 < u16 body 0 ∨ 3 < u8 body 2 →
        exec (.panelRead tag body) s = .next (s.replied l 0xB1 tag .badValue .empty)) ∧
      (u16 body 0 ≤ 255 → u8 body 2 ≤ 3 →
        (s.panels.look (u16 body 0) = none →
          exec (.panelRead tag body) s = .next (s.replied l 0xB1 tag .notFound .empty)) ∧
        ∀ p, s.panels.look (u16 body 0) = some p →
          let id := u16 body 0
          let c := p.content
          let n := p.line
          let queue := (s.line (lineOf id)).queue
          let secs := fun t : Option Nat => t.map (· / 1000)
          ∃ entry,
          ((∀ e ∈ queue, e.panel ≠ id) → entry = none) ∧
          (∀ a e b, queue = a ++ e :: b → e.panel = id → (∀ x ∈ a, x.panel ≠ id) →
            entry = some (e.cls, e.full, a.length)) ∧
          exec (.panelRead tag body) s = .next (s.replied l 0xB1 tag .done (.panel id
            (if u8 body 2 = 0 then .ident p.decl (id / 64) (id % 64) p.guide p.pins
            else if u8 body 2 = 1 then .content p.decl.fitted c.inUse p.visible c.dirty c.inFlight c.jobClass c.jobPage
              c.shown c.rows c.notice c.cabin
              (if p.decl.kind = .door then (s.events.filter fun e => ⟨id, e.id⟩ ∈ s.bookings).map (·.id) else [])
              (c.rotation.map fun r => (r.index, p.decl.langs[r.index]?, secs r.due))
            else if u8 body 2 = 2 then .link n.state n.reason n.miss (secs n.nextPoll) n.partialCount (secs n.lastFull)
              (secs n.commitTime) n.lastBusy entry n.rest n.ambient (secs n.lastPresence)
              ((s.clock.u - n.lastPresence.getD n.origin) / 1000) n.brightness
            else .route s.epoch s.muster.level.alarmed (p.guideSlots ++ p.agendaSlots ++ [p.alertSlot])
              (p.pins.map fun x => (x.via, (x.via.bind s.nodes.look).map (·.current)))))))) ∧
    (body.length = 3 → s.link.take ⟨0x32, tag, body⟩ = some l →
      let id := u16 body 1
      let answer := fun (c : Code) (x : ReplyBody) => exec (.eventRead tag body) s = .next (s.replied l 0xB2 tag c x)
      (1 < u8 body 0 → answer .badValue .empty) ∧
      (u8 body 0 = 1 → id = 0 → answer .done (.eventRecord s.events.head?)) ∧
      (u8 body 0 = 0 ∨ u8 body 0 = 1 ∧ id ≠ 0 →
        (s.event id = none → answer .notFound .empty) ∧
        ∀ a e b, s.events = a ++ e :: b → e.id = id → (∀ x ∈ a, x.id ≠ id) →
          answer .done (.eventRecord (if u8 body 0 = 0 then some e else b.head?)))) ∧
    (body.length = 3 → s.link.take ⟨0x33, tag, body⟩ = some l →
      let id := u16 body 0
      let d := u8 body 2
      let answer := fun (c : Code) (x : ReplyBody) => exec (.routeProbe tag body) s = .next (s.replied l 0xB3 tag c x)
      (255 < id → answer .badValue .empty) ∧
      (id ≤ 255 → s.panels.look id = none ∨ 127 < d ∨ s.dests.look d = none → answer .notFound .empty) ∧
      ∀ p, id ≤ 255 → s.panels.look id = some p → d ≤ 127 → (s.dests.look d).isSome →
        ∃ old, answer .done (.probe s.epoch s.muster.level.alarmed (routeCalc s.routeEnv p.decl.position
            (if p.decl.kind = .landing then p.decl.ownNode else none) p.pins d old)) ∧
          (∀ a x b, p.guideSlots ++ p.agendaSlots ++ [p.alertSlot] = a ++ x :: b → x.dest = some d →
            (∀ y ∈ a, y.dest ≠ some d) → old = x) ∧
          ((∀ x ∈ p.guideSlots ++ p.agendaSlots ++ [p.alertSlot], x.dest ≠ some d) → old = Slot.empty))

/-! ### Laws that every step keeps -/

/-- The state right after reset is lawful, and it is what start-up with an erased image makes of it. That reset is such a
start-up, with the rate strap low and both inputs deasserted, is the model's choice (log 4); that its KIT report is on
its way is read from R167 (log 10). -/
def Obligations.ResetLawful : Prop :=
  State.reset.tablesLaw ∧ State.reset.clockLaw ∧ State.reset.linkLaw ∧ State.reset.setsLaw ∧ State.reset.visibleLaw ∧
    State.reset.shownLaw ∧ State.reset.restLaw ∧ State.reset.queueLaw ∧ State.reset.bookingLaw ∧
    eventOrdered State.reset.events ∧ State.reset.agendaLaw ∧ State.reset.coverageLaw ∧
    State.reset.slotLaw ∧ State.reset.arrowLaw ∧
    exec (.startUp false false false []) State.reset = .next State.reset

/-- Every step keeps the records lawful: tables in canonical form, the ship-minute law and the ranges of the clock, the
bounds of the link's queues, the sets of every panel (the in-use set as R85 has it for NOTICE, AGENDA, GUIDE and ALERT,
whatever the event), the rest ladder at ACTIVE during a drill or muster, and covered ≤ live. The visible-set law and
the shown-record law follow. The coverage law of R144 whole (the two counts, and covered ≤ live ≤ declared) is kept
with the queue and slot laws, and the arrow-result law of R80 by itself. -/
def Obligations.StepKeepsRecords : Prop :=
  (∀ s t : State, step s = .next t →
    s.tablesLaw → s.clockLaw → s.linkLaw → s.setsLaw → s.restLaw →
    t.tablesLaw ∧ t.clockLaw ∧ t.linkLaw ∧ t.setsLaw ∧ t.restLaw ∧ t.visibleLaw ∧ t.shownLaw) ∧
  (∀ s t : State, step s = .next t → (∀ c, s.muster.coverage = some c → c.covered ≤ c.live) →
    ∀ c, t.muster.coverage = some c → c.covered ≤ c.live) ∧
  (∀ s t : State, step s = .next t → s.tablesLaw → s.queueLaw → s.slotLaw → s.coverageLaw → t.coverageLaw) ∧
  ∀ s t : State, step s = .next t → s.arrowLaw → t.arrowLaw

/-- Every step keeps the draw-queue law: each panel stands in a queue at most once, only panels declared on the line
stand in it, and the classes fall from head to tail. With it every step keeps the slot law: the slot count of a line is
the number of its UPDATING doors and held slots, and never above 4; the job, its exchanges and the COMMIT times, on
which that count rests, agree with the states of the panels. -/
def Obligations.StepKeepsQueues : Prop :=
  (∀ s t : State, step s = .next t → s.tablesLaw → s.queueLaw → t.tablesLaw ∧ t.queueLaw) ∧
  ∀ s t : State, step s = .next t → s.tablesLaw → s.queueLaw → s.slotLaw → t.slotLaw

/-- Every step keeps the programme lawful: the booking law, the order of the event table, and every agenda what the
programme, the bookings and the clock of the moment choose by the conditions and limits of R50, its rows filled as R51
says. -/
def Obligations.StepKeepsProgramme : Prop :=
  ∀ s t : State, step s = .next t →
    s.tablesLaw → s.clock.minuteLaw → s.bookingLaw → eventOrdered s.events → s.agendaLaw →
    t.clock.minuteLaw ∧ t.bookingLaw ∧ eventOrdered t.events ∧ t.agendaLaw
end

