-- ==== Sys2Proof/Laws/Frames.lean ====
section
/-! SUPPORT. The frame of every shared operation: the fields of the state that it leaves as they are. Each is one lemma,
tagged for simp, so that no later proof unfolds an operation to see what it keeps. -/

namespace Sys2Proof.Machine

@[simp] theorem State.report_frame (s : State) (r : Report) :
    (s.report r).params = s.params ∧ (s.report r).nodes = s.nodes ∧ (s.report r).dests = s.dests ∧
    (s.report r).phrases = s.phrases ∧ (s.report r).panels = s.panels ∧ (s.report r).clock = s.clock ∧
    (s.report r).events = s.events ∧ (s.report r).bookings = s.bookings ∧ (s.report r).epoch = s.epoch ∧
    (s.report r).lines = s.lines ∧ (s.report r).muster = s.muster ∧ (s.report r).store = s.store ∧
    (s.report r).pending = s.pending :=
  ⟨rfl, rfl, rfl, rfl, rfl, rfl, rfl, rfl, rfl, rfl, rfl, rfl, rfl⟩

@[simp] theorem State.setPanel_frame (s : State) (id : Nat) (p : Panel) :
    (s.setPanel id p).params = s.params ∧ (s.setPanel id p).nodes = s.nodes ∧
    (s.setPanel id p).dests = s.dests ∧ (s.setPanel id p).phrases = s.phrases ∧
    (s.setPanel id p).clock = s.clock ∧ (s.setPanel id p).events = s.events ∧
    (s.setPanel id p).bookings = s.bookings ∧ (s.setPanel id p).epoch = s.epoch ∧
    (s.setPanel id p).lines = s.lines ∧ (s.setPanel id p).muster = s.muster ∧
    (s.setPanel id p).link = s.link ∧ (s.setPanel id p).store = s.store ∧
    (s.setPanel id p).pending = s.pending :=
  ⟨rfl, rfl, rfl, rfl, rfl, rfl, rfl, rfl, rfl, rfl, rfl, rfl, rfl⟩

@[simp] theorem State.setLine_frame (s : State) (i : Fin 4) (l : LineUnit) :
    (s.setLine i l).params = s.params ∧ (s.setLine i l).nodes = s.nodes ∧ (s.setLine i l).dests = s.dests ∧
    (s.setLine i l).phrases = s.phrases ∧ (s.setLine i l).panels = s.panels ∧
    (s.setLine i l).clock = s.clock ∧ (s.setLine i l).events = s.events ∧
    (s.setLine i l).bookings = s.bookings ∧ (s.setLine i l).epoch = s.epoch ∧
    (s.setLine i l).muster = s.muster ∧ (s.setLine i l).link = s.link ∧ (s.setLine i l).store = s.store ∧
    (s.setLine i l).pending = s.pending :=
  ⟨rfl, rfl, rfl, rfl, rfl, rfl, rfl, rfl, rfl, rfl, rfl, rfl, rfl⟩

@[simp] theorem State.updLine_frame (s : State) (i : Fin 4) (f : LineUnit → LineUnit) :
    (s.updLine i f).params = s.params ∧ (s.updLine i f).nodes = s.nodes ∧ (s.updLine i f).dests = s.dests ∧
    (s.updLine i f).phrases = s.phrases ∧ (s.updLine i f).panels = s.panels ∧
    (s.updLine i f).clock = s.clock ∧ (s.updLine i f).events = s.events ∧
    (s.updLine i f).bookings = s.bookings ∧ (s.updLine i f).epoch = s.epoch ∧
    (s.updLine i f).muster = s.muster ∧ (s.updLine i f).link = s.link ∧ (s.updLine i f).store = s.store ∧
    (s.updLine i f).pending = s.pending :=
  ⟨rfl, rfl, rfl, rfl, rfl, rfl, rfl, rfl, rfl, rfl, rfl, rfl, rfl⟩

@[simp] theorem State.updPanel_frame (s : State) (id : Nat) (f : Panel → Panel) :
    (s.updPanel id f).params = s.params ∧ (s.updPanel id f).nodes = s.nodes ∧
    (s.updPanel id f).dests = s.dests ∧ (s.updPanel id f).phrases = s.phrases ∧
    (s.updPanel id f).clock = s.clock ∧ (s.updPanel id f).events = s.events ∧
    (s.updPanel id f).bookings = s.bookings ∧ (s.updPanel id f).epoch = s.epoch ∧
    (s.updPanel id f).lines = s.lines ∧ (s.updPanel id f).muster = s.muster ∧
    (s.updPanel id f).link = s.link ∧ (s.updPanel id f).store = s.store ∧
    (s.updPanel id f).pending = s.pending := by
  simp only [State.updPanel]
  (repeat' split) <;> simp

@[simp] theorem State.withPending_frame (s : State) (cs : List Instr) :
    (s.withPending cs).params = s.params ∧ (s.withPending cs).nodes = s.nodes ∧
    (s.withPending cs).dests = s.dests ∧ (s.withPending cs).phrases = s.phrases ∧
    (s.withPending cs).panels = s.panels ∧ (s.withPending cs).clock = s.clock ∧
    (s.withPending cs).events = s.events ∧ (s.withPending cs).bookings = s.bookings ∧
    (s.withPending cs).epoch = s.epoch ∧ (s.withPending cs).lines = s.lines ∧
    (s.withPending cs).muster = s.muster ∧ (s.withPending cs).link = s.link ∧
    (s.withPending cs).store = s.store :=
  ⟨rfl, rfl, rfl, rfl, rfl, rfl, rfl, rfl, rfl, rfl, rfl, rfl, rfl⟩

@[simp] theorem State.pass_frame (s : State) (w : DecideWhen) (b : Bool) (f : Nat → Panel → Panel × List Mark) :
    (s.pass w b f).params = s.params ∧ (s.pass w b f).nodes = s.nodes ∧ (s.pass w b f).dests = s.dests ∧
    (s.pass w b f).phrases = s.phrases ∧ (s.pass w b f).clock = s.clock ∧ (s.pass w b f).events = s.events ∧
    (s.pass w b f).bookings = s.bookings ∧ (s.pass w b f).epoch = s.epoch ∧
    (s.pass w b f).muster = s.muster ∧ (s.pass w b f).link = s.link ∧ (s.pass w b f).store = s.store ∧
    (s.pass w b f).pending = s.pending := by
  simp [State.pass]

@[simp] theorem State.passOne_frame (s : State) (id : Nat) (w : DecideWhen) (b : Bool) (f : Nat → Panel → Panel × List Mark) :
    (s.passOne id w b f).params = s.params ∧ (s.passOne id w b f).nodes = s.nodes ∧
    (s.passOne id w b f).dests = s.dests ∧ (s.passOne id w b f).phrases = s.phrases ∧
    (s.passOne id w b f).clock = s.clock ∧ (s.passOne id w b f).events = s.events ∧
    (s.passOne id w b f).bookings = s.bookings ∧ (s.passOne id w b f).epoch = s.epoch ∧
    (s.passOne id w b f).muster = s.muster ∧ (s.passOne id w b f).link = s.link ∧
    (s.passOne id w b f).store = s.store ∧ (s.passOne id w b f).pending = s.pending := by
  simp only [State.passOne]
  (repeat' split) <;> simp

@[simp] theorem State.forcedDraw_frame (s : State) (id : Nat) (c : DrawClass) :
    (s.forcedDraw id c).params = s.params ∧ (s.forcedDraw id c).nodes = s.nodes ∧
    (s.forcedDraw id c).dests = s.dests ∧ (s.forcedDraw id c).phrases = s.phrases ∧
    (s.forcedDraw id c).clock = s.clock ∧ (s.forcedDraw id c).events = s.events ∧
    (s.forcedDraw id c).bookings = s.bookings ∧ (s.forcedDraw id c).epoch = s.epoch ∧
    (s.forcedDraw id c).muster = s.muster ∧ (s.forcedDraw id c).link = s.link ∧
    (s.forcedDraw id c).store = s.store ∧ (s.forcedDraw id c).pending = s.pending := by
  simp [State.forcedDraw]

@[simp] theorem State.agendas_frame (s : State) :
    (s.agendas).params = s.params ∧ (s.agendas).nodes = s.nodes ∧ (s.agendas).dests = s.dests ∧
    (s.agendas).phrases = s.phrases ∧ (s.agendas).clock = s.clock ∧ (s.agendas).events = s.events ∧
    (s.agendas).bookings = s.bookings ∧ (s.agendas).epoch = s.epoch ∧ (s.agendas).muster = s.muster ∧
    (s.agendas).link = s.link ∧ (s.agendas).store = s.store ∧ (s.agendas).pending = s.pending := by
  simp [State.agendas]

@[simp] theorem State.clockPass_frame (s : State) :
    (s.clockPass).params = s.params ∧ (s.clockPass).nodes = s.nodes ∧ (s.clockPass).dests = s.dests ∧
    (s.clockPass).phrases = s.phrases ∧ (s.clockPass).clock = s.clock ∧ (s.clockPass).events = s.events ∧
    (s.clockPass).bookings = s.bookings ∧ (s.clockPass).epoch = s.epoch ∧ (s.clockPass).muster = s.muster ∧
    (s.clockPass).link = s.link ∧ (s.clockPass).store = s.store ∧ (s.clockPass).pending = s.pending := by
  simp [State.clockPass]

@[simp] theorem State.bumpEpoch_frame (s : State) :
    (s.bumpEpoch).params = s.params ∧ (s.bumpEpoch).nodes = s.nodes ∧ (s.bumpEpoch).dests = s.dests ∧
    (s.bumpEpoch).phrases = s.phrases ∧ (s.bumpEpoch).clock = s.clock ∧ (s.bumpEpoch).events = s.events ∧
    (s.bumpEpoch).bookings = s.bookings ∧ (s.bumpEpoch).muster = s.muster ∧ (s.bumpEpoch).link = s.link ∧
    (s.bumpEpoch).store = s.store ∧ (s.bumpEpoch).pending = s.pending := by
  simp [State.bumpEpoch]

@[simp] theorem State.sweepUpdate_frame (s : State) (old : Muster) :
    (s.sweepUpdate old).params = s.params ∧ (s.sweepUpdate old).nodes = s.nodes ∧
    (s.sweepUpdate old).dests = s.dests ∧ (s.sweepUpdate old).phrases = s.phrases ∧
    (s.sweepUpdate old).panels = s.panels ∧ (s.sweepUpdate old).clock = s.clock ∧
    (s.sweepUpdate old).events = s.events ∧ (s.sweepUpdate old).bookings = s.bookings ∧
    (s.sweepUpdate old).epoch = s.epoch ∧ (s.sweepUpdate old).muster = s.muster ∧
    (s.sweepUpdate old).link = s.link ∧ (s.sweepUpdate old).store = s.store ∧
    (s.sweepUpdate old).pending = s.pending := by
  simp [State.sweepUpdate]

@[simp] theorem State.setCoverage_frame (s : State) (c : Option Coverage) :
    (s.setCoverage c).params = s.params ∧ (s.setCoverage c).nodes = s.nodes ∧
    (s.setCoverage c).dests = s.dests ∧ (s.setCoverage c).phrases = s.phrases ∧
    (s.setCoverage c).panels = s.panels ∧ (s.setCoverage c).clock = s.clock ∧
    (s.setCoverage c).events = s.events ∧ (s.setCoverage c).bookings = s.bookings ∧
    (s.setCoverage c).epoch = s.epoch ∧ (s.setCoverage c).lines = s.lines ∧ (s.setCoverage c).link = s.link ∧
    (s.setCoverage c).store = s.store ∧ (s.setCoverage c).pending = s.pending :=
  ⟨rfl, rfl, rfl, rfl, rfl, rfl, rfl, rfl, rfl, rfl, rfl, rfl, rfl⟩

@[simp] theorem State.evaluateCoverage_frame (s : State) :
    (s.evaluateCoverage).params = s.params ∧ (s.evaluateCoverage).nodes = s.nodes ∧
    (s.evaluateCoverage).dests = s.dests ∧ (s.evaluateCoverage).phrases = s.phrases ∧
    (s.evaluateCoverage).panels = s.panels ∧ (s.evaluateCoverage).clock = s.clock ∧
    (s.evaluateCoverage).events = s.events ∧ (s.evaluateCoverage).bookings = s.bookings ∧
    (s.evaluateCoverage).epoch = s.epoch ∧ (s.evaluateCoverage).lines = s.lines ∧
    (s.evaluateCoverage).store = s.store ∧ (s.evaluateCoverage).pending = s.pending := by
  simp only [State.evaluateCoverage]
  (repeat' split) <;> simp

@[simp] theorem State.startCoverage_frame (s : State) (l : AlertLevel) :
    (s.startCoverage l).params = s.params ∧ (s.startCoverage l).nodes = s.nodes ∧
    (s.startCoverage l).dests = s.dests ∧ (s.startCoverage l).phrases = s.phrases ∧
    (s.startCoverage l).panels = s.panels ∧ (s.startCoverage l).clock = s.clock ∧
    (s.startCoverage l).events = s.events ∧ (s.startCoverage l).bookings = s.bookings ∧
    (s.startCoverage l).epoch = s.epoch ∧ (s.startCoverage l).lines = s.lines ∧
    (s.startCoverage l).store = s.store ∧ (s.startCoverage l).pending = s.pending := by
  simp [State.startCoverage]

@[simp] theorem State.restoreTest_frame (s : State) :
    (s.restoreTest).params = s.params ∧ (s.restoreTest).nodes = s.nodes ∧ (s.restoreTest).dests = s.dests ∧
    (s.restoreTest).phrases = s.phrases ∧ (s.restoreTest).panels = s.panels ∧
    (s.restoreTest).clock = s.clock ∧ (s.restoreTest).events = s.events ∧
    (s.restoreTest).bookings = s.bookings ∧ (s.restoreTest).epoch = s.epoch ∧
    (s.restoreTest).store = s.store ∧ (s.restoreTest).pending = s.pending := by
  simp only [State.restoreTest]
  (repeat' split) <;> simp

@[simp] theorem State.musterNotice_frame (s : State) :
    (s.musterNotice).params = s.params ∧ (s.musterNotice).nodes = s.nodes ∧
    (s.musterNotice).dests = s.dests ∧ (s.musterNotice).phrases = s.phrases ∧
    (s.musterNotice).panels = s.panels ∧ (s.musterNotice).clock = s.clock ∧
    (s.musterNotice).events = s.events ∧ (s.musterNotice).bookings = s.bookings ∧
    (s.musterNotice).epoch = s.epoch ∧ (s.musterNotice).store = s.store ∧
    (s.musterNotice).pending = s.pending := by
  simp [State.musterNotice]

@[simp] theorem State.alertsDue_frame (s : State) :
    (s.alertsDue).params = s.params ∧ (s.alertsDue).nodes = s.nodes ∧ (s.alertsDue).dests = s.dests ∧
    (s.alertsDue).phrases = s.phrases ∧ (s.alertsDue).panels = s.panels ∧ (s.alertsDue).clock = s.clock ∧
    (s.alertsDue).events = s.events ∧ (s.alertsDue).bookings = s.bookings ∧ (s.alertsDue).epoch = s.epoch ∧
    (s.alertsDue).lines = s.lines ∧ (s.alertsDue).link = s.link ∧ (s.alertsDue).store = s.store ∧
    (s.alertsDue).pending = s.pending := by
  simp [State.alertsDue]

@[simp] theorem State.enterAlarm_frame (s : State) :
    (s.enterAlarm).params = s.params ∧ (s.enterAlarm).nodes = s.nodes ∧ (s.enterAlarm).dests = s.dests ∧
    (s.enterAlarm).phrases = s.phrases ∧ (s.enterAlarm).clock = s.clock ∧ (s.enterAlarm).events = s.events ∧
    (s.enterAlarm).bookings = s.bookings ∧ (s.enterAlarm).muster = s.muster ∧ (s.enterAlarm).link = s.link ∧
    (s.enterAlarm).store = s.store ∧ (s.enterAlarm).pending = s.pending := by
  simp [State.enterAlarm]

@[simp] theorem State.holdAwake_frame (s : State) :
    (s.holdAwake).params = s.params ∧ (s.holdAwake).nodes = s.nodes ∧ (s.holdAwake).dests = s.dests ∧
    (s.holdAwake).phrases = s.phrases ∧ (s.holdAwake).clock = s.clock ∧ (s.holdAwake).events = s.events ∧
    (s.holdAwake).bookings = s.bookings ∧ (s.holdAwake).epoch = s.epoch ∧ (s.holdAwake).lines = s.lines ∧
    (s.holdAwake).muster = s.muster ∧ (s.holdAwake).link = s.link ∧ (s.holdAwake).store = s.store ∧
    (s.holdAwake).pending = s.pending := by
  simp [State.holdAwake]

@[simp] theorem State.raiseLevel_frame (s : State) (l : AlertLevel) (c : LevelCause) :
    (s.raiseLevel l c).params = s.params ∧ (s.raiseLevel l c).nodes = s.nodes ∧
    (s.raiseLevel l c).dests = s.dests ∧ (s.raiseLevel l c).phrases = s.phrases ∧
    (s.raiseLevel l c).clock = s.clock ∧ (s.raiseLevel l c).events = s.events ∧
    (s.raiseLevel l c).bookings = s.bookings ∧ (s.raiseLevel l c).store = s.store ∧
    (s.raiseLevel l c).pending = s.pending := by
  simp only [State.raiseLevel]
  (repeat' split) <;> simp

@[simp] theorem State.leaveAlarm_frame (s : State) :
    (s.leaveAlarm).params = s.params ∧ (s.leaveAlarm).nodes = s.nodes ∧ (s.leaveAlarm).dests = s.dests ∧
    (s.leaveAlarm).phrases = s.phrases ∧ (s.leaveAlarm).clock = s.clock ∧ (s.leaveAlarm).events = s.events ∧
    (s.leaveAlarm).bookings = s.bookings ∧ (s.leaveAlarm).muster = s.muster ∧ (s.leaveAlarm).link = s.link ∧
    (s.leaveAlarm).store = s.store ∧ (s.leaveAlarm).pending = s.pending := by
  simp [State.leaveAlarm]

@[simp] theorem State.releaseLines_frame (s : State) :
    (s.releaseLines).params = s.params ∧ (s.releaseLines).nodes = s.nodes ∧
    (s.releaseLines).dests = s.dests ∧ (s.releaseLines).phrases = s.phrases ∧
    (s.releaseLines).clock = s.clock ∧ (s.releaseLines).events = s.events ∧
    (s.releaseLines).bookings = s.bookings ∧ (s.releaseLines).epoch = s.epoch ∧
    (s.releaseLines).link = s.link ∧ (s.releaseLines).store = s.store ∧ (s.releaseLines).pending = s.pending := by
  simp [State.releaseLines]

@[simp] theorem State.allClear_frame (s : State) :
    (s.allClear).params = s.params ∧ (s.allClear).nodes = s.nodes ∧ (s.allClear).dests = s.dests ∧
    (s.allClear).phrases = s.phrases ∧ (s.allClear).clock = s.clock ∧ (s.allClear).events = s.events ∧
    (s.allClear).bookings = s.bookings ∧ (s.allClear).store = s.store ∧ (s.allClear).pending = s.pending := by
  simp [State.allClear]

@[simp] theorem State.beginJob_frame (s : State) (i : Fin 4) (e : Entry) (p : Panel) :
    (s.beginJob i e p).params = s.params ∧ (s.beginJob i e p).nodes = s.nodes ∧
    (s.beginJob i e p).dests = s.dests ∧ (s.beginJob i e p).phrases = s.phrases ∧
    (s.beginJob i e p).clock = s.clock ∧ (s.beginJob i e p).events = s.events ∧
    (s.beginJob i e p).bookings = s.bookings ∧ (s.beginJob i e p).epoch = s.epoch ∧
    (s.beginJob i e p).muster = s.muster ∧ (s.beginJob i e p).link = s.link ∧
    (s.beginJob i e p).store = s.store ∧ (s.beginJob i e p).pending = s.pending := by
  simp [State.beginJob]

@[simp] theorem State.sendPoll_frame (s : State) (i : Fin 4) (id : Nat) :
    (s.sendPoll i id).params = s.params ∧ (s.sendPoll i id).nodes = s.nodes ∧
    (s.sendPoll i id).dests = s.dests ∧ (s.sendPoll i id).phrases = s.phrases ∧
    (s.sendPoll i id).panels = s.panels ∧ (s.sendPoll i id).clock = s.clock ∧
    (s.sendPoll i id).events = s.events ∧ (s.sendPoll i id).bookings = s.bookings ∧
    (s.sendPoll i id).epoch = s.epoch ∧ (s.sendPoll i id).muster = s.muster ∧
    (s.sendPoll i id).link = s.link ∧ (s.sendPoll i id).store = s.store ∧
    (s.sendPoll i id).pending = s.pending := by
  simp only [State.sendPoll]
  (repeat' split) <;> simp

@[simp] theorem State.pick_frame (s : State) (i : Fin 4) (n : Nat) :
    (State.pick i n s).params = s.params ∧ (State.pick i n s).nodes = s.nodes ∧
    (State.pick i n s).dests = s.dests ∧ (State.pick i n s).phrases = s.phrases ∧
    (State.pick i n s).clock = s.clock ∧ (State.pick i n s).events = s.events ∧
    (State.pick i n s).bookings = s.bookings ∧ (State.pick i n s).epoch = s.epoch ∧
    (State.pick i n s).muster = s.muster ∧ (State.pick i n s).link = s.link ∧
    (State.pick i n s).store = s.store ∧ (State.pick i n s).pending = s.pending := by
  induction n generalizing s with
  | zero => simp [State.pick]
  | succ n ih =>
    simp only [State.pick]
    (repeat' split) <;> simp [ih]

@[simp] theorem State.arbitrate_frame (s : State) (i : Fin 4) :
    (s.arbitrate i).params = s.params ∧ (s.arbitrate i).nodes = s.nodes ∧ (s.arbitrate i).dests = s.dests ∧
    (s.arbitrate i).phrases = s.phrases ∧ (s.arbitrate i).clock = s.clock ∧
    (s.arbitrate i).events = s.events ∧ (s.arbitrate i).bookings = s.bookings ∧
    (s.arbitrate i).epoch = s.epoch ∧ (s.arbitrate i).muster = s.muster ∧ (s.arbitrate i).link = s.link ∧
    (s.arbitrate i).store = s.store ∧ (s.arbitrate i).pending = s.pending := by
  simp [State.arbitrate]

@[simp] theorem State.settleLine_frame (s : State) (old : State) (i : Fin 4) :
    (s.settleLine old i).params = s.params ∧ (s.settleLine old i).nodes = s.nodes ∧
    (s.settleLine old i).dests = s.dests ∧ (s.settleLine old i).phrases = s.phrases ∧
    (s.settleLine old i).clock = s.clock ∧ (s.settleLine old i).events = s.events ∧
    (s.settleLine old i).bookings = s.bookings ∧ (s.settleLine old i).epoch = s.epoch ∧
    (s.settleLine old i).muster = s.muster ∧ (s.settleLine old i).link = s.link ∧
    (s.settleLine old i).store = s.store ∧ (s.settleLine old i).pending = s.pending := by
  simp only [State.settleLine]
  (repeat' split) <;> simp

@[simp] theorem State.settle_frame (s : State) (old : State) :
    (s.settle old).params = s.params ∧ (s.settle old).nodes = s.nodes ∧ (s.settle old).dests = s.dests ∧
    (s.settle old).phrases = s.phrases ∧ (s.settle old).clock = s.clock ∧ (s.settle old).events = s.events ∧
    (s.settle old).bookings = s.bookings ∧ (s.settle old).epoch = s.epoch ∧
    (s.settle old).muster = s.muster ∧ (s.settle old).link = s.link ∧ (s.settle old).store = s.store ∧
    (s.settle old).pending = s.pending := by
  simp [State.settle]

@[simp] theorem State.faultReport_frame (s : State) (id : Nat) (r : FaultReason) (k : Option Byte) :
    (s.faultReport id r k).params = s.params ∧ (s.faultReport id r k).nodes = s.nodes ∧
    (s.faultReport id r k).dests = s.dests ∧ (s.faultReport id r k).phrases = s.phrases ∧
    (s.faultReport id r k).panels = s.panels ∧ (s.faultReport id r k).clock = s.clock ∧
    (s.faultReport id r k).events = s.events ∧ (s.faultReport id r k).bookings = s.bookings ∧
    (s.faultReport id r k).epoch = s.epoch ∧ (s.faultReport id r k).lines = s.lines ∧
    (s.faultReport id r k).muster = s.muster ∧ (s.faultReport id r k).store = s.store ∧
    (s.faultReport id r k).pending = s.pending := by
  simp [State.faultReport]

@[simp] theorem State.guestReport_frame (s : State) (k : GuestKind) (id : Nat) (src : GuestSource) :
    (s.guestReport k id src).params = s.params ∧ (s.guestReport k id src).nodes = s.nodes ∧
    (s.guestReport k id src).dests = s.dests ∧ (s.guestReport k id src).phrases = s.phrases ∧
    (s.guestReport k id src).panels = s.panels ∧ (s.guestReport k id src).clock = s.clock ∧
    (s.guestReport k id src).events = s.events ∧ (s.guestReport k id src).bookings = s.bookings ∧
    (s.guestReport k id src).epoch = s.epoch ∧ (s.guestReport k id src).lines = s.lines ∧
    (s.guestReport k id src).muster = s.muster ∧ (s.guestReport k id src).store = s.store ∧
    (s.guestReport k id src).pending = s.pending := by
  simp [State.guestReport]

@[simp] theorem State.button_frame (s : State) (id : Nat) (b : Button) :
    (s.button id b).params = s.params ∧ (s.button id b).nodes = s.nodes ∧ (s.button id b).dests = s.dests ∧
    (s.button id b).phrases = s.phrases ∧ (s.button id b).clock = s.clock ∧
    (s.button id b).events = s.events ∧ (s.button id b).bookings = s.bookings ∧
    (s.button id b).epoch = s.epoch ∧ (s.button id b).muster = s.muster ∧ (s.button id b).store = s.store ∧
    (s.button id b).pending = s.pending := by
  simp only [State.button]
  (repeat' split) <;> simp

@[simp] theorem State.buttons_frame (s : State) (id : Nat) (bs : List Button) :
    (s.buttons id bs).params = s.params ∧ (s.buttons id bs).nodes = s.nodes ∧
    (s.buttons id bs).dests = s.dests ∧ (s.buttons id bs).phrases = s.phrases ∧
    (s.buttons id bs).clock = s.clock ∧ (s.buttons id bs).events = s.events ∧
    (s.buttons id bs).bookings = s.bookings ∧ (s.buttons id bs).epoch = s.epoch ∧
    (s.buttons id bs).muster = s.muster ∧ (s.buttons id bs).store = s.store ∧
    (s.buttons id bs).pending = s.pending := by
  induction bs generalizing s with
  | nil => simp [State.buttons]
  | cons b bs ih => simp [State.buttons, ih]

@[simp] theorem State.handOn_frame (s : State) (id : Nat) (r : Readings) :
    (s.handOn id r).params = s.params ∧ (s.handOn id r).nodes = s.nodes ∧ (s.handOn id r).dests = s.dests ∧
    (s.handOn id r).phrases = s.phrases ∧ (s.handOn id r).clock = s.clock ∧
    (s.handOn id r).events = s.events ∧ (s.handOn id r).bookings = s.bookings ∧
    (s.handOn id r).epoch = s.epoch ∧ (s.handOn id r).muster = s.muster ∧ (s.handOn id r).store = s.store ∧
    (s.handOn id r).pending = s.pending := by
  simp [State.handOn]

@[simp] theorem State.endFailed_frame (s : State) (i : Fin 4) (id : Nat) (p : Panel) (m : Nat) (b : Bool) :
    (s.endFailed i id p m b).params = s.params ∧ (s.endFailed i id p m b).nodes = s.nodes ∧
    (s.endFailed i id p m b).dests = s.dests ∧ (s.endFailed i id p m b).phrases = s.phrases ∧
    (s.endFailed i id p m b).clock = s.clock ∧ (s.endFailed i id p m b).events = s.events ∧
    (s.endFailed i id p m b).bookings = s.bookings ∧ (s.endFailed i id p m b).epoch = s.epoch ∧
    (s.endFailed i id p m b).store = s.store ∧ (s.endFailed i id p m b).pending = s.pending := by
  simp only [State.endFailed]
  (repeat' split) <;> simp

@[simp] theorem State.jobFails_frame (s : State) (i : Fin 4) (id : Nat) (p : Panel) :
    (s.jobFails i id p).params = s.params ∧ (s.jobFails i id p).nodes = s.nodes ∧
    (s.jobFails i id p).dests = s.dests ∧ (s.jobFails i id p).phrases = s.phrases ∧
    (s.jobFails i id p).clock = s.clock ∧ (s.jobFails i id p).events = s.events ∧
    (s.jobFails i id p).bookings = s.bookings ∧ (s.jobFails i id p).epoch = s.epoch ∧
    (s.jobFails i id p).store = s.store ∧ (s.jobFails i id p).pending = s.pending := by
  simp [State.jobFails]

@[simp] theorem State.abortEnds_frame (s : State) (i : Fin 4) (id : Nat) (p : Panel) (b : Bool) :
    (s.abortEnds i id p b).params = s.params ∧ (s.abortEnds i id p b).nodes = s.nodes ∧
    (s.abortEnds i id p b).dests = s.dests ∧ (s.abortEnds i id p b).phrases = s.phrases ∧
    (s.abortEnds i id p b).clock = s.clock ∧ (s.abortEnds i id p b).events = s.events ∧
    (s.abortEnds i id p b).bookings = s.bookings ∧ (s.abortEnds i id p b).epoch = s.epoch ∧
    (s.abortEnds i id p b).store = s.store ∧ (s.abortEnds i id p b).pending = s.pending := by
  simp only [State.abortEnds]
  (repeat' split) <;> simp

@[simp] theorem State.jobWrongKind_frame (s : State) (i : Fin 4) (id : Nat) (p : Panel) (k : Byte) :
    (s.jobWrongKind i id p k).params = s.params ∧ (s.jobWrongKind i id p k).nodes = s.nodes ∧
    (s.jobWrongKind i id p k).dests = s.dests ∧ (s.jobWrongKind i id p k).phrases = s.phrases ∧
    (s.jobWrongKind i id p k).clock = s.clock ∧ (s.jobWrongKind i id p k).events = s.events ∧
    (s.jobWrongKind i id p k).bookings = s.bookings ∧ (s.jobWrongKind i id p k).epoch = s.epoch ∧
    (s.jobWrongKind i id p k).store = s.store ∧ (s.jobWrongKind i id p k).pending = s.pending := by
  simp [State.jobWrongKind]

@[simp] theorem State.sendOrAbort_frame (s : State) (i : Fin 4) (id : Nat) (p : Panel) (v : CompSet) (f : LineFrame) :
    (s.sendOrAbort i id p v f).params = s.params ∧ (s.sendOrAbort i id p v f).nodes = s.nodes ∧
    (s.sendOrAbort i id p v f).dests = s.dests ∧ (s.sendOrAbort i id p v f).phrases = s.phrases ∧
    (s.sendOrAbort i id p v f).panels = s.panels ∧ (s.sendOrAbort i id p v f).clock = s.clock ∧
    (s.sendOrAbort i id p v f).events = s.events ∧ (s.sendOrAbort i id p v f).bookings = s.bookings ∧
    (s.sendOrAbort i id p v f).epoch = s.epoch ∧ (s.sendOrAbort i id p v f).muster = s.muster ∧
    (s.sendOrAbort i id p v f).link = s.link ∧ (s.sendOrAbort i id p v f).store = s.store ∧
    (s.sendOrAbort i id p v f).pending = s.pending := by
  simp [State.sendOrAbort]

@[simp] theorem State.sendPage_frame (s : State) (i : Fin 4) (id : Nat) (p : Panel) (g : Page) :
    (s.sendPage i id p g).params = s.params ∧ (s.sendPage i id p g).nodes = s.nodes ∧
    (s.sendPage i id p g).dests = s.dests ∧ (s.sendPage i id p g).phrases = s.phrases ∧
    (s.sendPage i id p g).panels = s.panels ∧ (s.sendPage i id p g).clock = s.clock ∧
    (s.sendPage i id p g).events = s.events ∧ (s.sendPage i id p g).bookings = s.bookings ∧
    (s.sendPage i id p g).epoch = s.epoch ∧ (s.sendPage i id p g).muster = s.muster ∧
    (s.sendPage i id p g).link = s.link ∧ (s.sendPage i id p g).store = s.store ∧
    (s.sendPage i id p g).pending = s.pending := by
  simp [State.sendPage]

@[simp] theorem State.composeJob_frame (s : State) (i : Fin 4) (id : Nat) (p : Panel) (a : SelectAnswer) :
    (s.composeJob i id p a).params = s.params ∧ (s.composeJob i id p a).nodes = s.nodes ∧
    (s.composeJob i id p a).dests = s.dests ∧ (s.composeJob i id p a).phrases = s.phrases ∧
    (s.composeJob i id p a).clock = s.clock ∧ (s.composeJob i id p a).events = s.events ∧
    (s.composeJob i id p a).bookings = s.bookings ∧ (s.composeJob i id p a).epoch = s.epoch ∧
    (s.composeJob i id p a).muster = s.muster ∧ (s.composeJob i id p a).link = s.link ∧
    (s.composeJob i id p a).store = s.store ∧ (s.composeJob i id p a).pending = s.pending := by
  simp only [State.composeJob]
  (repeat' split) <;> simp

@[simp] theorem State.selectTaken_frame (s : State) (i : Fin 4) (id : Nat) (a : SelectAnswer) :
    (s.selectTaken i id a).params = s.params ∧ (s.selectTaken i id a).nodes = s.nodes ∧
    (s.selectTaken i id a).dests = s.dests ∧ (s.selectTaken i id a).phrases = s.phrases ∧
    (s.selectTaken i id a).clock = s.clock ∧ (s.selectTaken i id a).events = s.events ∧
    (s.selectTaken i id a).bookings = s.bookings ∧ (s.selectTaken i id a).epoch = s.epoch ∧
    (s.selectTaken i id a).store = s.store ∧ (s.selectTaken i id a).pending = s.pending := by
  simp only [State.selectTaken]
  (repeat' split) <;> simp

@[simp] theorem State.pageTaken_frame (s : State) (i : Fin 4) (id : Nat) (a : PageAnswer) :
    (s.pageTaken i id a).params = s.params ∧ (s.pageTaken i id a).nodes = s.nodes ∧
    (s.pageTaken i id a).dests = s.dests ∧ (s.pageTaken i id a).phrases = s.phrases ∧
    (s.pageTaken i id a).clock = s.clock ∧ (s.pageTaken i id a).events = s.events ∧
    (s.pageTaken i id a).bookings = s.bookings ∧ (s.pageTaken i id a).epoch = s.epoch ∧
    (s.pageTaken i id a).store = s.store ∧ (s.pageTaken i id a).pending = s.pending := by
  simp only [State.pageTaken]
  (repeat' split) <;> simp

@[simp] theorem State.commitTaken_frame (s : State) (i : Fin 4) (id : Nat) :
    (s.commitTaken i id).params = s.params ∧ (s.commitTaken i id).nodes = s.nodes ∧
    (s.commitTaken i id).dests = s.dests ∧ (s.commitTaken i id).phrases = s.phrases ∧
    (s.commitTaken i id).clock = s.clock ∧ (s.commitTaken i id).events = s.events ∧
    (s.commitTaken i id).bookings = s.bookings ∧ (s.commitTaken i id).epoch = s.epoch ∧
    (s.commitTaken i id).muster = s.muster ∧ (s.commitTaken i id).link = s.link ∧
    (s.commitTaken i id).store = s.store ∧ (s.commitTaken i id).pending = s.pending := by
  simp only [State.commitTaken]
  (repeat' split) <;> simp

@[simp] theorem State.completion_frame (s : State) (i : Fin 4) (id : Nat) (p : Panel) :
    (s.completion i id p).params = s.params ∧ (s.completion i id p).nodes = s.nodes ∧
    (s.completion i id p).dests = s.dests ∧ (s.completion i id p).phrases = s.phrases ∧
    (s.completion i id p).clock = s.clock ∧ (s.completion i id p).events = s.events ∧
    (s.completion i id p).bookings = s.bookings ∧ (s.completion i id p).epoch = s.epoch ∧
    (s.completion i id p).store = s.store ∧ (s.completion i id p).pending = s.pending := by
  simp only [State.completion]
  (repeat' split) <;> simp

@[simp] theorem State.pollTaken_frame (s : State) (i : Fin 4) (id b : Nat) (a : PollAnswer) :
    (s.pollTaken i id b a).params = s.params ∧ (s.pollTaken i id b a).nodes = s.nodes ∧
    (s.pollTaken i id b a).dests = s.dests ∧ (s.pollTaken i id b a).phrases = s.phrases ∧
    (s.pollTaken i id b a).clock = s.clock ∧ (s.pollTaken i id b a).events = s.events ∧
    (s.pollTaken i id b a).bookings = s.bookings ∧ (s.pollTaken i id b a).epoch = s.epoch ∧
    (s.pollTaken i id b a).store = s.store ∧ (s.pollTaken i id b a).pending = s.pending := by
  simp only [State.pollTaken]
  (repeat' split) <;> simp

@[simp] theorem State.joinTaken_frame (s : State) (id : Nat) (p : Panel) (a : SelectAnswer) :
    (s.joinTaken id p a).params = s.params ∧ (s.joinTaken id p a).nodes = s.nodes ∧
    (s.joinTaken id p a).dests = s.dests ∧ (s.joinTaken id p a).phrases = s.phrases ∧
    (s.joinTaken id p a).clock = s.clock ∧ (s.joinTaken id p a).events = s.events ∧
    (s.joinTaken id p a).bookings = s.bookings ∧ (s.joinTaken id p a).epoch = s.epoch ∧
    (s.joinTaken id p a).store = s.store ∧ (s.joinTaken id p a).pending = s.pending := by
  simp only [State.joinTaken]
  (repeat' split) <;> simp

@[simp] theorem State.probeWrongKind_frame (s : State) (i : Fin 4) (id : Nat) (p : Panel) (k : Byte) :
    (s.probeWrongKind i id p k).params = s.params ∧ (s.probeWrongKind i id p k).nodes = s.nodes ∧
    (s.probeWrongKind i id p k).dests = s.dests ∧ (s.probeWrongKind i id p k).phrases = s.phrases ∧
    (s.probeWrongKind i id p k).clock = s.clock ∧ (s.probeWrongKind i id p k).events = s.events ∧
    (s.probeWrongKind i id p k).bookings = s.bookings ∧ (s.probeWrongKind i id p k).epoch = s.epoch ∧
    (s.probeWrongKind i id p k).muster = s.muster ∧ (s.probeWrongKind i id p k).store = s.store ∧
    (s.probeWrongKind i id p k).pending = s.pending := by
  simp only [State.probeWrongKind]
  (repeat' split) <;> simp

@[simp] theorem State.probeTaken_frame (s : State) (i : Fin 4) (id : Nat) (a : SelectAnswer) :
    (s.probeTaken i id a).params = s.params ∧ (s.probeTaken i id a).nodes = s.nodes ∧
    (s.probeTaken i id a).dests = s.dests ∧ (s.probeTaken i id a).phrases = s.phrases ∧
    (s.probeTaken i id a).clock = s.clock ∧ (s.probeTaken i id a).events = s.events ∧
    (s.probeTaken i id a).bookings = s.bookings ∧ (s.probeTaken i id a).epoch = s.epoch ∧
    (s.probeTaken i id a).store = s.store ∧ (s.probeTaken i id a).pending = s.pending := by
  simp only [State.probeTaken]
  (repeat' split) <;> simp

@[simp] theorem State.pollMissing_frame (s : State) (i : Fin 4) (id : Nat) (p : Panel) :
    (s.pollMissing i id p).params = s.params ∧ (s.pollMissing i id p).nodes = s.nodes ∧
    (s.pollMissing i id p).dests = s.dests ∧ (s.pollMissing i id p).phrases = s.phrases ∧
    (s.pollMissing i id p).clock = s.clock ∧ (s.pollMissing i id p).events = s.events ∧
    (s.pollMissing i id p).bookings = s.bookings ∧ (s.pollMissing i id p).epoch = s.epoch ∧
    (s.pollMissing i id p).store = s.store ∧ (s.pollMissing i id p).pending = s.pending := by
  simp only [State.pollMissing]
  (repeat' split) <;> simp

@[simp] theorem State.timeoutOf_frame (s : State) (i : Fin 4) (id : Nat) (p : Panel) (f : LineFrame) :
    (s.timeoutOf i id p f).params = s.params ∧ (s.timeoutOf i id p f).nodes = s.nodes ∧
    (s.timeoutOf i id p f).dests = s.dests ∧ (s.timeoutOf i id p f).phrases = s.phrases ∧
    (s.timeoutOf i id p f).clock = s.clock ∧ (s.timeoutOf i id p f).events = s.events ∧
    (s.timeoutOf i id p f).bookings = s.bookings ∧ (s.timeoutOf i id p f).epoch = s.epoch ∧
    (s.timeoutOf i id p f).store = s.store ∧ (s.timeoutOf i id p f).pending = s.pending := by
  simp only [State.timeoutOf]
  (repeat' split) <;> simp

@[simp] theorem State.timeout_frame (s : State) (i : Fin 4) :
    (s.timeout i).params = s.params ∧ (s.timeout i).nodes = s.nodes ∧ (s.timeout i).dests = s.dests ∧
    (s.timeout i).phrases = s.phrases ∧ (s.timeout i).clock = s.clock ∧ (s.timeout i).events = s.events ∧
    (s.timeout i).bookings = s.bookings ∧ (s.timeout i).epoch = s.epoch ∧ (s.timeout i).store = s.store ∧
    (s.timeout i).pending = s.pending := by
  simp only [State.timeout]
  (repeat' split) <;> simp

@[simp] theorem State.resetLine_frame (s : State) (i : Fin 4) :
    (s.resetLine i).params = s.params ∧ (s.resetLine i).nodes = s.nodes ∧ (s.resetLine i).dests = s.dests ∧
    (s.resetLine i).phrases = s.phrases ∧ (s.resetLine i).clock = s.clock ∧
    (s.resetLine i).events = s.events ∧ (s.resetLine i).bookings = s.bookings ∧
    (s.resetLine i).epoch = s.epoch ∧ (s.resetLine i).store = s.store ∧ (s.resetLine i).pending = s.pending := by
  simp [State.resetLine]

@[simp] theorem State.rewriteEvent_frame (s : State) (e : Event) :
    (s.rewriteEvent e).params = s.params ∧ (s.rewriteEvent e).nodes = s.nodes ∧
    (s.rewriteEvent e).dests = s.dests ∧ (s.rewriteEvent e).phrases = s.phrases ∧
    (s.rewriteEvent e).panels = s.panels ∧ (s.rewriteEvent e).clock = s.clock ∧
    (s.rewriteEvent e).bookings = s.bookings ∧ (s.rewriteEvent e).epoch = s.epoch ∧
    (s.rewriteEvent e).lines = s.lines ∧ (s.rewriteEvent e).muster = s.muster ∧
    (s.rewriteEvent e).link = s.link ∧ (s.rewriteEvent e).store = s.store ∧
    (s.rewriteEvent e).pending = s.pending :=
  ⟨rfl, rfl, rfl, rfl, rfl, rfl, rfl, rfl, rfl, rfl, rfl, rfl, rfl⟩

@[simp] theorem State.dropBookings_frame (s : State) (f : Booking → Bool) :
    (s.dropBookings f).params = s.params ∧ (s.dropBookings f).nodes = s.nodes ∧
    (s.dropBookings f).dests = s.dests ∧ (s.dropBookings f).phrases = s.phrases ∧
    (s.dropBookings f).panels = s.panels ∧ (s.dropBookings f).clock = s.clock ∧
    (s.dropBookings f).epoch = s.epoch ∧ (s.dropBookings f).lines = s.lines ∧
    (s.dropBookings f).muster = s.muster ∧ (s.dropBookings f).link = s.link ∧
    (s.dropBookings f).store = s.store ∧ (s.dropBookings f).pending = s.pending :=
  ⟨rfl, rfl, rfl, rfl, rfl, rfl, rfl, rfl, rfl, rfl, rfl, rfl⟩

@[simp] theorem State.removeEvent_frame (s : State) (id : Nat) :
    (s.removeEvent id).params = s.params ∧ (s.removeEvent id).nodes = s.nodes ∧
    (s.removeEvent id).dests = s.dests ∧ (s.removeEvent id).phrases = s.phrases ∧
    (s.removeEvent id).panels = s.panels ∧ (s.removeEvent id).clock = s.clock ∧
    (s.removeEvent id).epoch = s.epoch ∧ (s.removeEvent id).lines = s.lines ∧
    (s.removeEvent id).muster = s.muster ∧ (s.removeEvent id).link = s.link ∧
    (s.removeEvent id).store = s.store ∧ (s.removeEvent id).pending = s.pending :=
  ⟨rfl, rfl, rfl, rfl, rfl, rfl, rfl, rfl, rfl, rfl, rfl, rfl⟩

@[simp] theorem State.advanceEvent_frame (s : State) (k : NoticeKind) (m : Nat) (e : Event) :
    (s.advanceEvent k m e).params = s.params ∧ (s.advanceEvent k m e).nodes = s.nodes ∧
    (s.advanceEvent k m e).dests = s.dests ∧ (s.advanceEvent k m e).phrases = s.phrases ∧
    (s.advanceEvent k m e).panels = s.panels ∧ (s.advanceEvent k m e).clock = s.clock ∧
    (s.advanceEvent k m e).bookings = s.bookings ∧ (s.advanceEvent k m e).epoch = s.epoch ∧
    (s.advanceEvent k m e).lines = s.lines ∧ (s.advanceEvent k m e).muster = s.muster ∧
    (s.advanceEvent k m e).store = s.store ∧ (s.advanceEvent k m e).pending = s.pending := by
  simp only [State.advanceEvent]
  (repeat' split) <;> simp

@[simp] theorem State.lingerEvent_frame (s : State) (k : NoticeKind) (m : Nat) (e : Event) :
    (s.lingerEvent k m e).params = s.params ∧ (s.lingerEvent k m e).nodes = s.nodes ∧
    (s.lingerEvent k m e).dests = s.dests ∧ (s.lingerEvent k m e).phrases = s.phrases ∧
    (s.lingerEvent k m e).panels = s.panels ∧ (s.lingerEvent k m e).clock = s.clock ∧
    (s.lingerEvent k m e).epoch = s.epoch ∧ (s.lingerEvent k m e).lines = s.lines ∧
    (s.lingerEvent k m e).muster = s.muster ∧ (s.lingerEvent k m e).store = s.store ∧
    (s.lingerEvent k m e).pending = s.pending := by
  simp only [State.lingerEvent]
  (repeat' split) <;> simp

@[simp] theorem State.evaluateEvents_frame (s : State) (k : NoticeKind) (m : Nat) (es : List Event) :
    (s.evaluateEvents k m es).params = s.params ∧ (s.evaluateEvents k m es).nodes = s.nodes ∧
    (s.evaluateEvents k m es).dests = s.dests ∧ (s.evaluateEvents k m es).phrases = s.phrases ∧
    (s.evaluateEvents k m es).panels = s.panels ∧ (s.evaluateEvents k m es).clock = s.clock ∧
    (s.evaluateEvents k m es).epoch = s.epoch ∧ (s.evaluateEvents k m es).lines = s.lines ∧
    (s.evaluateEvents k m es).muster = s.muster ∧ (s.evaluateEvents k m es).store = s.store ∧
    (s.evaluateEvents k m es).pending = s.pending := by
  induction es generalizing s with
  | nil => simp [State.evaluateEvents]
  | cons e es ih => simp [State.evaluateEvents, ih]

@[simp] theorem State.programmeNotice_frame (s : State) (k : NoticeKind) :
    (s.programmeNotice k).params = s.params ∧ (s.programmeNotice k).nodes = s.nodes ∧
    (s.programmeNotice k).dests = s.dests ∧ (s.programmeNotice k).phrases = s.phrases ∧
    (s.programmeNotice k).panels = s.panels ∧ (s.programmeNotice k).clock = s.clock ∧
    (s.programmeNotice k).epoch = s.epoch ∧ (s.programmeNotice k).lines = s.lines ∧
    (s.programmeNotice k).muster = s.muster ∧ (s.programmeNotice k).store = s.store ∧
    (s.programmeNotice k).pending = s.pending := by
  simp only [State.programmeNotice]
  (repeat' split) <;> simp

@[simp] theorem State.addBooking_frame (s : State) (k : Booking) :
    (s.addBooking k).params = s.params ∧ (s.addBooking k).nodes = s.nodes ∧
    (s.addBooking k).dests = s.dests ∧ (s.addBooking k).phrases = s.phrases ∧
    (s.addBooking k).panels = s.panels ∧ (s.addBooking k).clock = s.clock ∧
    (s.addBooking k).epoch = s.epoch ∧ (s.addBooking k).lines = s.lines ∧
    (s.addBooking k).muster = s.muster ∧ (s.addBooking k).link = s.link ∧ (s.addBooking k).store = s.store ∧
    (s.addBooking k).pending = s.pending :=
  ⟨rfl, rfl, rfl, rfl, rfl, rfl, rfl, rfl, rfl, rfl, rfl, rfl⟩

@[simp] theorem State.notice_frame (s : State) (k : NoticeKind) :
    (s.notice k).params = s.params ∧ (s.notice k).nodes = s.nodes ∧ (s.notice k).dests = s.dests ∧
    (s.notice k).phrases = s.phrases ∧ (s.notice k).clock = s.clock ∧ (s.notice k).epoch = s.epoch ∧
    (s.notice k).muster = s.muster ∧ (s.notice k).store = s.store ∧ (s.notice k).pending = s.pending := by
  simp [State.notice]

@[simp] theorem State.applyOffset_frame (s : State) (o : Int) (c : ClockCause) :
    (s.applyOffset o c).params = s.params ∧ (s.applyOffset o c).nodes = s.nodes ∧
    (s.applyOffset o c).dests = s.dests ∧ (s.applyOffset o c).phrases = s.phrases ∧
    (s.applyOffset o c).panels = s.panels ∧ (s.applyOffset o c).events = s.events ∧
    (s.applyOffset o c).bookings = s.bookings ∧ (s.applyOffset o c).epoch = s.epoch ∧
    (s.applyOffset o c).lines = s.lines ∧ (s.applyOffset o c).muster = s.muster ∧
    (s.applyOffset o c).store = s.store ∧ (s.applyOffset o c).pending = s.pending :=
  ⟨rfl, rfl, rfl, rfl, rfl, rfl, rfl, rfl, rfl, rfl, rfl, rfl⟩

@[simp] theorem State.advanceR_frame (s : State) :
    (s.advanceR).params = s.params ∧ (s.advanceR).nodes = s.nodes ∧ (s.advanceR).dests = s.dests ∧
    (s.advanceR).phrases = s.phrases ∧ (s.advanceR).epoch = s.epoch ∧ (s.advanceR).muster = s.muster ∧
    (s.advanceR).store = s.store ∧ (s.advanceR).pending = s.pending := by
  simp only [State.advanceR]
  (repeat' split) <;> simp

@[simp] theorem State.alertAfterWithdraw_frame (s : State) (i : Fin 4) :
    (s.alertAfterWithdraw i).params = s.params ∧ (s.alertAfterWithdraw i).nodes = s.nodes ∧
    (s.alertAfterWithdraw i).dests = s.dests ∧ (s.alertAfterWithdraw i).phrases = s.phrases ∧
    (s.alertAfterWithdraw i).panels = s.panels ∧ (s.alertAfterWithdraw i).clock = s.clock ∧
    (s.alertAfterWithdraw i).events = s.events ∧ (s.alertAfterWithdraw i).bookings = s.bookings ∧
    (s.alertAfterWithdraw i).epoch = s.epoch ∧ (s.alertAfterWithdraw i).lines = s.lines ∧
    (s.alertAfterWithdraw i).link = s.link ∧ (s.alertAfterWithdraw i).store = s.store ∧
    (s.alertAfterWithdraw i).pending = s.pending := by
  simp only [State.alertAfterWithdraw]
  (repeat' split) <;> simp

@[simp] theorem State.dropPanelBookings_frame (s : State) (id : Nat) :
    (s.dropPanelBookings id).params = s.params ∧ (s.dropPanelBookings id).nodes = s.nodes ∧
    (s.dropPanelBookings id).dests = s.dests ∧ (s.dropPanelBookings id).phrases = s.phrases ∧
    (s.dropPanelBookings id).clock = s.clock ∧ (s.dropPanelBookings id).epoch = s.epoch ∧
    (s.dropPanelBookings id).muster = s.muster ∧ (s.dropPanelBookings id).link = s.link ∧
    (s.dropPanelBookings id).store = s.store ∧ (s.dropPanelBookings id).pending = s.pending := by
  simp only [State.dropPanelBookings]
  (repeat' split) <;> simp

@[simp] theorem State.musterWithdrawal_frame (s : State) (p : Panel) :
    (s.musterWithdrawal p).params = s.params ∧ (s.musterWithdrawal p).nodes = s.nodes ∧
    (s.musterWithdrawal p).dests = s.dests ∧ (s.musterWithdrawal p).phrases = s.phrases ∧
    (s.musterWithdrawal p).panels = s.panels ∧ (s.musterWithdrawal p).clock = s.clock ∧
    (s.musterWithdrawal p).events = s.events ∧ (s.musterWithdrawal p).bookings = s.bookings ∧
    (s.musterWithdrawal p).epoch = s.epoch ∧ (s.musterWithdrawal p).store = s.store ∧
    (s.musterWithdrawal p).pending = s.pending := by
  simp only [State.musterWithdrawal]
  (repeat' split) <;> simp

@[simp] theorem State.withdrawPanel_frame (s : State) (id : Nat) (p : Panel) :
    (s.withdrawPanel id p).params = s.params ∧ (s.withdrawPanel id p).nodes = s.nodes ∧
    (s.withdrawPanel id p).dests = s.dests ∧ (s.withdrawPanel id p).phrases = s.phrases ∧
    (s.withdrawPanel id p).clock = s.clock ∧ (s.withdrawPanel id p).epoch = s.epoch ∧
    (s.withdrawPanel id p).store = s.store ∧ (s.withdrawPanel id p).pending = s.pending := by
  simp [State.withdrawPanel]

@[simp] theorem State.declareNew_frame (s : State) (id : Nat) (d : Decl) :
    (s.declareNew id d).params = s.params ∧ (s.declareNew id d).nodes = s.nodes ∧
    (s.declareNew id d).dests = s.dests ∧ (s.declareNew id d).phrases = s.phrases ∧
    (s.declareNew id d).clock = s.clock ∧ (s.declareNew id d).events = s.events ∧
    (s.declareNew id d).bookings = s.bookings ∧ (s.declareNew id d).epoch = s.epoch ∧
    (s.declareNew id d).muster = s.muster ∧ (s.declareNew id d).link = s.link ∧
    (s.declareNew id d).store = s.store ∧ (s.declareNew id d).pending = s.pending := by
  simp [State.declareNew]

@[simp] theorem State.alertAfterDeclare_frame (s : State) (i : Fin 4) :
    (s.alertAfterDeclare i).params = s.params ∧ (s.alertAfterDeclare i).nodes = s.nodes ∧
    (s.alertAfterDeclare i).dests = s.dests ∧ (s.alertAfterDeclare i).phrases = s.phrases ∧
    (s.alertAfterDeclare i).panels = s.panels ∧ (s.alertAfterDeclare i).clock = s.clock ∧
    (s.alertAfterDeclare i).events = s.events ∧ (s.alertAfterDeclare i).bookings = s.bookings ∧
    (s.alertAfterDeclare i).epoch = s.epoch ∧ (s.alertAfterDeclare i).link = s.link ∧
    (s.alertAfterDeclare i).store = s.store ∧ (s.alertAfterDeclare i).pending = s.pending :=
  ⟨rfl, rfl, rfl, rfl, rfl, rfl, rfl, rfl, rfl, rfl, rfl, rfl⟩

@[simp] theorem State.declarePanel_frame (s : State) (id : Nat) (d : Decl) :
    (s.declarePanel id d).params = s.params ∧ (s.declarePanel id d).nodes = s.nodes ∧
    (s.declarePanel id d).dests = s.dests ∧ (s.declarePanel id d).phrases = s.phrases ∧
    (s.declarePanel id d).clock = s.clock ∧ (s.declarePanel id d).epoch = s.epoch ∧
    (s.declarePanel id d).store = s.store ∧ (s.declarePanel id d).pending = s.pending := by
  simp only [State.declarePanel]
  (repeat' split) <;> simp

@[simp] theorem State.writeNode_frame (s : State) (i : Nat) (n : NodeDef) :
    (s.writeNode i n).params = s.params ∧ (s.writeNode i n).dests = s.dests ∧
    (s.writeNode i n).phrases = s.phrases ∧ (s.writeNode i n).panels = s.panels ∧
    (s.writeNode i n).clock = s.clock ∧ (s.writeNode i n).events = s.events ∧
    (s.writeNode i n).bookings = s.bookings ∧ (s.writeNode i n).epoch = s.epoch ∧
    (s.writeNode i n).lines = s.lines ∧ (s.writeNode i n).muster = s.muster ∧
    (s.writeNode i n).link = s.link ∧ (s.writeNode i n).store = s.store ∧
    (s.writeNode i n).pending = s.pending :=
  ⟨rfl, rfl, rfl, rfl, rfl, rfl, rfl, rfl, rfl, rfl, rfl, rfl, rfl⟩

@[simp] theorem State.hostDnd_frame (s : State) (id : Nat) (a b : Bool) :
    (s.hostDnd id a b).params = s.params ∧ (s.hostDnd id a b).nodes = s.nodes ∧
    (s.hostDnd id a b).dests = s.dests ∧ (s.hostDnd id a b).phrases = s.phrases ∧
    (s.hostDnd id a b).panels = s.panels ∧ (s.hostDnd id a b).clock = s.clock ∧
    (s.hostDnd id a b).events = s.events ∧ (s.hostDnd id a b).bookings = s.bookings ∧
    (s.hostDnd id a b).epoch = s.epoch ∧ (s.hostDnd id a b).lines = s.lines ∧
    (s.hostDnd id a b).muster = s.muster ∧ (s.hostDnd id a b).store = s.store ∧
    (s.hostDnd id a b).pending = s.pending := by
  simp only [State.hostDnd]
  (repeat' split) <;> simp

@[simp] theorem State.setInput_frame (s : State) (i : AlarmInput) (a : AlarmIn) :
    (s.setInput i a).params = s.params ∧ (s.setInput i a).nodes = s.nodes ∧
    (s.setInput i a).dests = s.dests ∧ (s.setInput i a).phrases = s.phrases ∧
    (s.setInput i a).panels = s.panels ∧ (s.setInput i a).clock = s.clock ∧
    (s.setInput i a).events = s.events ∧ (s.setInput i a).bookings = s.bookings ∧
    (s.setInput i a).epoch = s.epoch ∧ (s.setInput i a).lines = s.lines ∧ (s.setInput i a).link = s.link ∧
    (s.setInput i a).store = s.store ∧ (s.setInput i a).pending = s.pending :=
  ⟨rfl, rfl, rfl, rfl, rfl, rfl, rfl, rfl, rfl, rfl, rfl, rfl, rfl⟩

@[simp] theorem State.takeInput_frame (s : State) (i : AlarmInput) :
    (s.takeInput i).params = s.params ∧ (s.takeInput i).nodes = s.nodes ∧ (s.takeInput i).dests = s.dests ∧
    (s.takeInput i).phrases = s.phrases ∧ (s.takeInput i).clock = s.clock ∧
    (s.takeInput i).events = s.events ∧ (s.takeInput i).bookings = s.bookings ∧
    (s.takeInput i).store = s.store ∧ (s.takeInput i).pending = s.pending := by
  simp only [State.takeInput]
  (repeat' split) <;> simp

@[simp] theorem State.onSelect_frame (s : State) (i : Fin 4) (x : Exchange) (a : SelectAnswer) :
    (s.onSelect i x a).params = s.params ∧ (s.onSelect i x a).nodes = s.nodes ∧
    (s.onSelect i x a).dests = s.dests ∧ (s.onSelect i x a).phrases = s.phrases ∧
    (s.onSelect i x a).clock = s.clock ∧ (s.onSelect i x a).events = s.events ∧
    (s.onSelect i x a).bookings = s.bookings ∧ (s.onSelect i x a).epoch = s.epoch ∧
    (s.onSelect i x a).store = s.store ∧ (s.onSelect i x a).pending = s.pending := by
  simp only [State.onSelect]
  (repeat' split) <;> simp

@[simp] theorem State.onPage_frame (s : State) (i : Fin 4) (x : Exchange) (a : PageAnswer) :
    (s.onPage i x a).params = s.params ∧ (s.onPage i x a).nodes = s.nodes ∧
    (s.onPage i x a).dests = s.dests ∧ (s.onPage i x a).phrases = s.phrases ∧
    (s.onPage i x a).clock = s.clock ∧ (s.onPage i x a).events = s.events ∧
    (s.onPage i x a).bookings = s.bookings ∧ (s.onPage i x a).epoch = s.epoch ∧
    (s.onPage i x a).store = s.store ∧ (s.onPage i x a).pending = s.pending := by
  simp only [State.onPage]
  (repeat' split) <;> simp

@[simp] theorem State.onCommit_frame (s : State) (i : Fin 4) (x : Exchange) :
    (s.onCommit i x).params = s.params ∧ (s.onCommit i x).nodes = s.nodes ∧
    (s.onCommit i x).dests = s.dests ∧ (s.onCommit i x).phrases = s.phrases ∧
    (s.onCommit i x).clock = s.clock ∧ (s.onCommit i x).events = s.events ∧
    (s.onCommit i x).bookings = s.bookings ∧ (s.onCommit i x).epoch = s.epoch ∧
    (s.onCommit i x).muster = s.muster ∧ (s.onCommit i x).link = s.link ∧ (s.onCommit i x).store = s.store ∧
    (s.onCommit i x).pending = s.pending := by
  simp only [State.onCommit]
  (repeat' split) <;> simp

@[simp] theorem State.onAbort_frame (s : State) (i : Fin 4) (x : Exchange) :
    (s.onAbort i x).params = s.params ∧ (s.onAbort i x).nodes = s.nodes ∧ (s.onAbort i x).dests = s.dests ∧
    (s.onAbort i x).phrases = s.phrases ∧ (s.onAbort i x).clock = s.clock ∧
    (s.onAbort i x).events = s.events ∧ (s.onAbort i x).bookings = s.bookings ∧
    (s.onAbort i x).epoch = s.epoch ∧ (s.onAbort i x).store = s.store ∧ (s.onAbort i x).pending = s.pending := by
  simp only [State.onAbort]
  (repeat' split) <;> simp

@[simp] theorem State.onPoll_frame (s : State) (i : Fin 4) (x : Exchange) (b : Nat) (a : PollAnswer) :
    (s.onPoll i x b a).params = s.params ∧ (s.onPoll i x b a).nodes = s.nodes ∧
    (s.onPoll i x b a).dests = s.dests ∧ (s.onPoll i x b a).phrases = s.phrases ∧
    (s.onPoll i x b a).clock = s.clock ∧ (s.onPoll i x b a).events = s.events ∧
    (s.onPoll i x b a).bookings = s.bookings ∧ (s.onPoll i x b a).epoch = s.epoch ∧
    (s.onPoll i x b a).store = s.store ∧ (s.onPoll i x b a).pending = s.pending := by
  simp only [State.onPoll]
  (repeat' split) <;> simp

@[simp] theorem State.onProbe_frame (s : State) (i : Fin 4) (x : Exchange) (a : SelectAnswer) :
    (s.onProbe i x a).params = s.params ∧ (s.onProbe i x a).nodes = s.nodes ∧
    (s.onProbe i x a).dests = s.dests ∧ (s.onProbe i x a).phrases = s.phrases ∧
    (s.onProbe i x a).clock = s.clock ∧ (s.onProbe i x a).events = s.events ∧
    (s.onProbe i x a).bookings = s.bookings ∧ (s.onProbe i x a).epoch = s.epoch ∧
    (s.onProbe i x a).store = s.store ∧ (s.onProbe i x a).pending = s.pending := by
  simp only [State.onProbe]
  (repeat' split) <;> simp

@[simp] theorem State.updateFails_frame (s : State) (id : Nat) :
    (s.updateFails id).params = s.params ∧ (s.updateFails id).nodes = s.nodes ∧
    (s.updateFails id).dests = s.dests ∧ (s.updateFails id).phrases = s.phrases ∧
    (s.updateFails id).clock = s.clock ∧ (s.updateFails id).events = s.events ∧
    (s.updateFails id).bookings = s.bookings ∧ (s.updateFails id).epoch = s.epoch ∧
    (s.updateFails id).store = s.store ∧ (s.updateFails id).pending = s.pending := by
  simp only [State.updateFails]
  (repeat' split) <;> simp

@[simp] theorem State.sweepAt_frame (s : State) (id : Nat) :
    (s.sweepAt id).params = s.params ∧ (s.sweepAt id).nodes = s.nodes ∧ (s.sweepAt id).dests = s.dests ∧
    (s.sweepAt id).phrases = s.phrases ∧ (s.sweepAt id).clock = s.clock ∧ (s.sweepAt id).events = s.events ∧
    (s.sweepAt id).bookings = s.bookings ∧ (s.sweepAt id).epoch = s.epoch ∧
    (s.sweepAt id).muster = s.muster ∧ (s.sweepAt id).link = s.link ∧ (s.sweepAt id).store = s.store ∧
    (s.sweepAt id).pending = s.pending := by
  simp only [State.sweepAt]
  (repeat' split) <;> simp

@[simp] theorem State.keepTag_frame (s : State) :
    (s.keepTag).params = s.params ∧ (s.keepTag).nodes = s.nodes ∧ (s.keepTag).dests = s.dests ∧
    (s.keepTag).phrases = s.phrases ∧ (s.keepTag).panels = s.panels ∧ (s.keepTag).clock = s.clock ∧
    (s.keepTag).events = s.events ∧ (s.keepTag).bookings = s.bookings ∧ (s.keepTag).epoch = s.epoch ∧
    (s.keepTag).lines = s.lines ∧ (s.keepTag).muster = s.muster ∧ (s.keepTag).store = s.store ∧
    (s.keepTag).pending = s.pending :=
  ⟨rfl, rfl, rfl, rfl, rfl, rfl, rfl, rfl, rfl, rfl, rfl, rfl, rfl⟩

@[simp] theorem State.beginCheckpoint_frame (s : State) :
    (s.beginCheckpoint).params = s.params ∧ (s.beginCheckpoint).nodes = s.nodes ∧
    (s.beginCheckpoint).dests = s.dests ∧ (s.beginCheckpoint).phrases = s.phrases ∧
    (s.beginCheckpoint).panels = s.panels ∧ (s.beginCheckpoint).clock = s.clock ∧
    (s.beginCheckpoint).events = s.events ∧ (s.beginCheckpoint).bookings = s.bookings ∧
    (s.beginCheckpoint).epoch = s.epoch ∧ (s.beginCheckpoint).lines = s.lines ∧
    (s.beginCheckpoint).muster = s.muster ∧ (s.beginCheckpoint).link = s.link ∧
    (s.beginCheckpoint).pending = s.pending :=
  ⟨rfl, rfl, rfl, rfl, rfl, rfl, rfl, rfl, rfl, rfl, rfl, rfl, rfl⟩

@[simp] theorem State.endCheckpoint_frame (s : State) (im : Image) (g : Bool) :
    (s.endCheckpoint im g).params = s.params ∧ (s.endCheckpoint im g).nodes = s.nodes ∧
    (s.endCheckpoint im g).dests = s.dests ∧ (s.endCheckpoint im g).phrases = s.phrases ∧
    (s.endCheckpoint im g).panels = s.panels ∧ (s.endCheckpoint im g).clock = s.clock ∧
    (s.endCheckpoint im g).events = s.events ∧ (s.endCheckpoint im g).bookings = s.bookings ∧
    (s.endCheckpoint im g).epoch = s.epoch ∧ (s.endCheckpoint im g).lines = s.lines ∧
    (s.endCheckpoint im g).muster = s.muster ∧ (s.endCheckpoint im g).pending = s.pending :=
  ⟨rfl, rfl, rfl, rfl, rfl, rfl, rfl, rfl, rfl, rfl, rfl, rfl⟩

@[simp] theorem State.restartContent_frame (s : State) :
    (s.restartContent).params = s.params ∧ (s.restartContent).nodes = s.nodes ∧
    (s.restartContent).dests = s.dests ∧ (s.restartContent).phrases = s.phrases ∧
    (s.restartContent).clock = s.clock ∧ (s.restartContent).events = s.events ∧
    (s.restartContent).bookings = s.bookings ∧ (s.restartContent).epoch = s.epoch ∧
    (s.restartContent).muster = s.muster ∧ (s.restartContent).link = s.link ∧
    (s.restartContent).store = s.store ∧ (s.restartContent).pending = s.pending := by
  simp [State.restartContent]

end Sys2Proof.Machine
end

