-- ==== Sys2Proof/Laws/Tables.lean ====
section
/-! SUPPORT. Laws of the keyed tables: what a write and a removal do, and that every operation keeps the one canonical
form (keys strictly rising). -/

namespace Sys2Proof.Machine

variable {α β : Type}

/-! ### Reading after a write or a removal -/

@[simp] theorem Table.look_nil (n : Nat) : Table.look ([] : Table α) n = none := rfl

theorem Table.look_cons (k : Nat) (v : α) (t : Table α) (n : Nat) :
    Table.look ((k, v) :: t) n = if k = n then some v else Table.look t n := rfl

@[simp] theorem Table.look_put_same (t : Table α) (n : Nat) (v : α) : (t.put n v).look n = some v := by
  induction t with
  | nil => simp [Table.put, Table.look]
  | cons e t ih =>
    obtain ⟨k, x⟩ := e
    simp only [Table.put]
    split
    · rw [Table.look_cons, if_neg (by omega), ih]
    · split <;> simp [Table.look]

@[simp] theorem Table.look_put_other (t : Table α) {n m : Nat} (v : α) (h : m ≠ n) :
    (t.put n v).look m = t.look m := by
  induction t with
  | nil => simp [Table.put, Table.look, Ne.symm h]
  | cons e t ih =>
    obtain ⟨k, x⟩ := e
    simp only [Table.put]
    split
    · simp [Table.look_cons, ih]
    · split
      · rename_i h1; subst h1; simp [Table.look_cons, Ne.symm h]
      · simp [Table.look_cons, Ne.symm h]

theorem Table.look_put (t : Table α) (n m : Nat) (v : α) :
    (t.put n v).look m = if m = n then some v else t.look m := by
  by_cases h : m = n
  · subst h; simp
  · simp [h]

@[simp] theorem Table.look_del_other (t : Table α) {n m : Nat} (h : m ≠ n) : (t.del n).look m = t.look m := by
  induction t with
  | nil => rfl
  | cons e t ih =>
    obtain ⟨k, x⟩ := e
    simp only [Table.del]
    split
    · rename_i h1; subst h1; simp [Table.look_cons, Ne.symm h]
    · simp [Table.look_cons, ih]

theorem Table.look_none_of_above {t : Table α} {n m : Nat} (h : t.above n = true) (hm : m ≤ n) : t.look m = none := by
  induction t with
  | nil => rfl
  | cons e t ih =>
    obtain ⟨k, x⟩ := e
    simp only [Table.above, Bool.and_eq_true, decide_eq_true_eq] at h
    rw [Table.look_cons, if_neg (by omega)]
    have : Table.above t n = true := by
      have h2 := h.2
      clear ih
      cases t with
      | nil => rfl
      | cons e' t' =>
        obtain ⟨k', x'⟩ := e'
        simp only [Table.above, Bool.and_eq_true, decide_eq_true_eq] at h2 ⊢
        exact ⟨by omega, h2.2⟩
    exact ih this

@[simp] theorem Table.look_mapVals (f : Nat → α → β) (t : Table α) (n : Nat) :
    (t.mapVals f).look n = (t.look n).map (f n) := by
  induction t with
  | nil => rfl
  | cons e t ih =>
    obtain ⟨k, x⟩ := e
    simp only [Table.mapVals, Table.look_cons]
    split
    · rename_i h; subst h; rfl
    · exact ih

/-! ### The canonical form -/

theorem Table.above_mono {t : Table α} {n m : Nat} (h : t.above n = true) (hm : m ≤ n) : t.above m = true := by
  cases t with
  | nil => rfl
  | cons e t =>
    obtain ⟨k, x⟩ := e
    simp only [Table.above, Bool.and_eq_true, decide_eq_true_eq] at h ⊢
    exact ⟨by omega, h.2⟩

theorem Table.sorted_of_above {t : Table α} {n : Nat} (h : t.above n = true) : t.sorted = true := by
  cases t with
  | nil => rfl
  | cons e t =>
    obtain ⟨k, x⟩ := e
    simp only [Table.above, Bool.and_eq_true] at h
    exact h.2

theorem Table.above_put {t : Table α} {n k : Nat} (v : α) (h : t.above k = true) (hn : k < n) :
    (t.put n v).above k = true := by
  induction t generalizing k with
  | nil => simp [Table.put, Table.above, hn]
  | cons e t ih =>
    obtain ⟨j, x⟩ := e
    simp only [Table.above, Bool.and_eq_true, decide_eq_true_eq] at h
    simp only [Table.put]
    split
    · rename_i hj
      simp only [Table.above, Bool.and_eq_true, decide_eq_true_eq]
      exact ⟨h.1, ih h.2 hj⟩
    · split
      · rename_i hj; subst hj
        simp [Table.above, h.1, h.2]
      · simp only [Table.above, Bool.and_eq_true, decide_eq_true_eq]
        exact ⟨hn, by omega, h.2⟩

theorem Table.sorted_put {t : Table α} (n : Nat) (v : α) (h : t.sorted = true) : (t.put n v).sorted = true := by
  cases t with
  | nil => simp [Table.put, Table.sorted, Table.above]
  | cons e t =>
    obtain ⟨k, x⟩ := e
    simp only [Table.sorted] at h
    simp only [Table.put]
    split
    · exact Table.above_put v h ‹_›
    · split
      · rename_i hk; subst hk; exact h
      · simp only [Table.sorted, Table.above, Bool.and_eq_true, decide_eq_true_eq]
        exact ⟨by omega, h⟩

theorem Table.above_del {t : Table α} {k : Nat} (n : Nat) (h : t.above k = true) : (t.del n).above k = true := by
  induction t generalizing k with
  | nil => rfl
  | cons e t ih =>
    obtain ⟨j, x⟩ := e
    simp only [Table.above, Bool.and_eq_true, decide_eq_true_eq] at h
    simp only [Table.del]
    split
    · exact Table.above_mono h.2 (by omega)
    · simp only [Table.above, Bool.and_eq_true, decide_eq_true_eq]
      exact ⟨h.1, ih h.2⟩

theorem Table.sorted_del {t : Table α} (n : Nat) (h : t.sorted = true) : (t.del n).sorted = true := by
  cases t with
  | nil => rfl
  | cons e t =>
    obtain ⟨k, x⟩ := e
    simp only [Table.sorted] at h
    simp only [Table.del]
    split
    · exact Table.sorted_of_above h
    · exact Table.above_del n h

@[simp] theorem Table.above_mapVals (f : Nat → α → β) (t : Table α) (n : Nat) :
    (t.mapVals f).above n = t.above n := by
  induction t generalizing n with
  | nil => rfl
  | cons e t ih => obtain ⟨k, x⟩ := e; simp [Table.mapVals, Table.above, ih]

@[simp] theorem Table.sorted_mapVals (f : Nat → α → β) (t : Table α) : (t.mapVals f).sorted = t.sorted := by
  cases t with
  | nil => rfl
  | cons e t => obtain ⟨k, x⟩ := e; simp [Table.mapVals, Table.sorted]

theorem Table.above_filter {t : Table α} {k : Nat} (f : Nat × α → Bool) (h : t.above k = true) :
    Table.above (t.filter f) k = true := by
  induction t generalizing k with
  | nil => rfl
  | cons e t ih =>
    obtain ⟨j, x⟩ := e
    simp only [Table.above, Bool.and_eq_true, decide_eq_true_eq] at h
    simp only [List.filter_cons]
    split
    · simp only [Table.above, Bool.and_eq_true, decide_eq_true_eq]
      exact ⟨h.1, ih h.2⟩
    · exact Table.above_mono (ih h.2) (by omega)

theorem Table.sorted_filter {t : Table α} (f : Nat × α → Bool) (h : t.sorted = true) :
    Table.sorted (t.filter f) = true := by
  cases t with
  | nil => rfl
  | cons e t =>
    obtain ⟨k, x⟩ := e
    simp only [Table.sorted] at h
    simp only [List.filter_cons]
    split
    · exact Table.above_filter f h
    · exact Table.sorted_of_above (Table.above_filter f h)

/-- In a canonical table a removed key reads as absent. -/
theorem Table.look_del_same {t : Table α} (n : Nat) (h : t.sorted = true) : (t.del n).look n = none := by
  induction t with
  | nil => rfl
  | cons e t ih =>
    obtain ⟨k, x⟩ := e
    simp only [Table.sorted] at h
    simp only [Table.del]
    split
    · rename_i hk; exact Table.look_none_of_above h (by omega)
    · rename_i hk; rw [Table.look_cons, if_neg hk, ih (Table.sorted_of_above h)]

/-! ### Membership -/

theorem Table.mem_of_look {t : Table α} {n : Nat} {v : α} (h : t.look n = some v) : (n, v) ∈ t := by
  induction t with
  | nil => simp at h
  | cons e t ih =>
    obtain ⟨k, x⟩ := e
    rw [Table.look_cons] at h
    split at h
    · rename_i hk; subst hk; cases h; simp
    · exact List.mem_cons_of_mem _ (ih h)

theorem Table.lt_of_above {t : Table α} {n : Nat} (h : t.above n = true) : ∀ e ∈ t, n < e.1 := by
  induction t generalizing n with
  | nil => simp
  | cons e t ih =>
    obtain ⟨k, x⟩ := e
    simp only [Table.above, Bool.and_eq_true, decide_eq_true_eq] at h
    intro e he
    rcases List.mem_cons.1 he with rfl | he
    · exact h.1
    · exact lt_trans h.1 (ih h.2 e he)

theorem Table.look_of_mem {t : Table α} {n : Nat} {v : α} (hs : t.sorted = true) (h : (n, v) ∈ t) :
    t.look n = some v := by
  induction t with
  | nil => simp at h
  | cons e t ih =>
    obtain ⟨k, x⟩ := e
    simp only [Table.sorted] at hs
    rcases List.mem_cons.1 h with he | he
    · cases he; simp [Table.look]
    · have := Table.lt_of_above hs _ he
      rw [Table.look_cons, if_neg (by simp at this; omega), ih (Table.sorted_of_above hs) he]

/-- A written table holds the written entry and entries that stood before. -/
theorem Table.mem_put {t : Table α} {n : Nat} {v : α} {e : Nat × α} (h : e ∈ t.put n v) : e = (n, v) ∨ e ∈ t := by
  induction t with
  | nil => simpa [Table.put] using h
  | cons a t ih =>
    obtain ⟨k, x⟩ := a
    simp only [Table.put] at h
    split at h
    · rcases List.mem_cons.1 h with h | h
      · exact .inr (by simp [h])
      · rcases ih h with h | h
        · exact .inl h
        · exact .inr (List.mem_cons_of_mem _ h)
    · split at h
      · rcases List.mem_cons.1 h with h | h
        · exact .inl h
        · exact .inr (List.mem_cons_of_mem _ h)
      · rcases List.mem_cons.1 h with h | h
        · exact .inl h
        · exact .inr h

theorem Table.mem_del {t : Table α} {n : Nat} {e : Nat × α} (h : e ∈ t.del n) : e ∈ t := by
  induction t with
  | nil => simp [Table.del] at h
  | cons a t ih =>
    obtain ⟨k, x⟩ := a
    simp only [Table.del] at h
    split at h
    · exact List.mem_cons_of_mem _ h
    · rcases List.mem_cons.1 h with h | h
      · simp [h]
      · exact List.mem_cons_of_mem _ (ih h)

theorem Table.mem_mapVals {f : Nat → α → β} {t : Table α} {e : Nat × β} (h : e ∈ t.mapVals f) :
    ∃ x, (e.1, x) ∈ t ∧ e.2 = f e.1 x := by
  induction t with
  | nil => simp [Table.mapVals] at h
  | cons a t ih =>
    obtain ⟨k, x⟩ := a
    simp only [Table.mapVals] at h
    rcases List.mem_cons.1 h with h | h
    · exact ⟨x, by simp [h], by simp [h]⟩
    · obtain ⟨y, hy, he⟩ := ih h
      exact ⟨y, List.mem_cons_of_mem _ hy, he⟩

@[simp] theorem Table.length_mapVals (f : Nat → α → β) (t : Table α) : (t.mapVals f).length = t.length := by
  induction t with
  | nil => rfl
  | cons e t ih => obtain ⟨k, x⟩ := e; simp [Table.mapVals, ih]

/-! ### The four lines -/

@[simp] theorem Four.get_set_same (x : Four α) (i : Fin 4) (v : α) : (x.set i v).get i = v := by
  fin_cases i <;> rfl

@[simp] theorem Four.get_set_other (x : Four α) {i j : Fin 4} (v : α) (h : j ≠ i) : (x.set i v).get j = x.get j := by
  fin_cases i <;> fin_cases j <;> first | rfl | exact absurd rfl h

@[simp] theorem Four.get_build (f : Fin 4 → α) (i : Fin 4) : (Four.build f).get i = f i := by
  fin_cases i <;> rfl

@[simp] theorem Four.get_modify_same (x : Four α) (i : Fin 4) (f : α → α) : (x.modify i f).get i = f (x.get i) := by
  simp [Four.modify]

@[simp] theorem Four.get_modify_other (x : Four α) {i j : Fin 4} (f : α → α) (h : j ≠ i) :
    (x.modify i f).get j = x.get j := by
  simp [Four.modify, h]

theorem Four.ext_get {x y : Four α} (h : ∀ i, x.get i = y.get i) : x = y := by
  cases x; cases y
  have h0 := h 0; have h1 := h 1; have h2 := h 2; have h3 := h 3
  simp only [Four.get] at h0 h1 h2 h3
  simp [h0, h1, h2, h3]

@[simp] theorem Four.set_get (x : Four α) (i : Fin 4) : x.set i (x.get i) = x := by
  fin_cases i <;> rfl

end Sys2Proof.Machine
end

