-- ==== Sys2Proof/Laws/State.lean ====
section
/-! SUPPORT. What each update of the state writes, true by unfolding it (what it keeps stands in Laws/Frames.lean). -/

namespace Sys2Proof.Machine

variable (s : State)

@[simp] theorem State.setPanel_panels (id : Nat) (p : Panel) : (s.setPanel id p).panels = s.panels.put id p := rfl

@[simp] theorem State.setLine_lines (i : Fin 4) (l : LineUnit) : (s.setLine i l).lines = s.lines.set i l := rfl

@[simp] theorem State.updLine_lines (i : Fin 4) (f : LineUnit → LineUnit) :
    (s.updLine i f).lines = s.lines.set i (f (s.lines.get i)) := rfl

theorem State.line_eq (i : Fin 4) : s.line i = s.lines.get i := rfl

@[simp] theorem State.updLine_line (i : Fin 4) (f : LineUnit → LineUnit) : (s.updLine i f).line i = f (s.line i) := by
  simp [State.line]

@[simp] theorem State.updLine_line_other {i j : Fin 4} (f : LineUnit → LineUnit) (h : j ≠ i) :
    (s.updLine i f).line j = s.line j := by
  simp [State.line, h]

@[simp] theorem State.setLine_line (i : Fin 4) (l : LineUnit) : (s.setLine i l).line i = l := by
  simp [State.line]

@[simp] theorem State.setLine_line_other {i j : Fin 4} (l : LineUnit) (h : j ≠ i) :
    (s.setLine i l).line j = s.line j := by
  simp [State.line, h]

@[simp] theorem State.report_link (r : Report) : (s.report r).link = s.link.report r := rfl

@[simp] theorem State.setCoverage_muster (c : Option Coverage) :
    (s.setCoverage c).muster = { s.muster with coverage := c } := rfl

@[simp] theorem State.setInput_muster (i : AlarmInput) (a : AlarmIn) :
    (s.setInput i a).muster = s.muster.setInput i a := rfl

@[simp] theorem State.withPending_pending (cs : List Instr) : (s.withPending cs).pending = cs := rfl

@[simp] theorem State.beginCheckpoint_store :
    s.beginCheckpoint.store = { s.store with image := s.store.image.erasing, checkpoint := some ⟨s.kit, .erase⟩ } := rfl

@[simp] theorem State.keepTag_link :
    s.keepTag.link = { s.link with checkpointTag := s.link.running.map (·.tag) } := rfl

/-- Hearing an answer that is not taken moves one line. -/
@[simp] theorem State.spoil_lines (i : Fin 4) (frame : Bytes) :
    (s.spoil i frame).lines = s.lines.set i ((s.line i).spoil frame) := rfl

@[simp] theorem State.spoil_frame (i : Fin 4) (frame : Bytes) :
    s.spoil i frame = { s with lines := s.lines.set i ((s.line i).spoil frame) } := rfl

/-- Such a line moves in its exchange alone, and there in the missing answer alone (R102). -/
@[simp] theorem LineUnit.spoil_frame (l : LineUnit) (frame : Bytes) :
    { l.spoil frame with exch := l.exch } = l ∧
    (l.spoil frame).exch.map (fun x => { x with missed := false }) = l.exch.map (fun x => { x with missed := false }) := by
  refine ⟨rfl, ?_⟩
  simp only [LineUnit.spoil, Option.map_map]
  congr 1
  funext x
  simp only [Function.comp]
  split <;> rfl

/-! ### The image -/

/-- An erasure begun leaves no valid image (R166). -/
theorem Image.erasing_check (x : Image) (readBack : Bytes) (k : Kit) : x.erasing.check readBack ≠ .inl k := by
  cases x <;> nofun

/-! ### Panels -/

@[simp] theorem Panel.mark_frame (p : Panel) (ms : List Mark) :
    (p.mark ms).decl = p.decl ∧ (p.mark ms).guide = p.guide ∧ (p.mark ms).pins = p.pins ∧
    (p.mark ms).guideSlots = p.guideSlots ∧ (p.mark ms).agendaSlots = p.agendaSlots ∧
    (p.mark ms).alertSlot = p.alertSlot ∧ (p.mark ms).line = p.line ∧
    (p.mark ms).content = { p.content with dirty := p.content.dirty.addAll ms } :=
  ⟨rfl, rfl, rfl, rfl, rfl, rfl, rfl, rfl⟩

@[simp] theorem Panel.refresh_frame (p : Panel) (l : Level) (c : Bool) :
    (p.refresh l c).decl = p.decl ∧ (p.refresh l c).guide = p.guide ∧ (p.refresh l c).pins = p.pins ∧
    (p.refresh l c).guideSlots = p.guideSlots ∧ (p.refresh l c).agendaSlots = p.agendaSlots ∧
    (p.refresh l c).alertSlot = p.alertSlot ∧ (p.refresh l c).line = p.line ∧
    (p.refresh l c).content = { p.content with inUse := p.inUseFor l c } :=
  ⟨rfl, rfl, rfl, rfl, rfl, rfl, rfl, rfl⟩

@[simp] theorem Panel.schedule_frame (p : Panel) (u : Nat) :
    (p.schedule u).decl = p.decl ∧ (p.schedule u).content = p.content ∧
    (p.schedule u).line = { p.line with nextPoll := p.interval.map (u + ·) } :=
  ⟨rfl, rfl, rfl⟩

@[simp] theorem Panel.enter_frame (p : Panel) (st : LineState) (u : Nat) :
    (p.enter st u).decl = p.decl ∧ (p.enter st u).content = p.content ∧ (p.enter st u).guide = p.guide ∧
    (p.enter st u).alertSlot = p.alertSlot ∧ (p.enter st u).line.state = st ∧
    (p.enter st u).line.rest = p.line.rest ∧ (p.enter st u).line.commitTime = none ∧
    (p.enter st u).line.deadline = none :=
  ⟨rfl, rfl, rfl, rfl, rfl, rfl, rfl, rfl⟩

/-! ### The outcome of a command -/

@[simp] theorem next_inj {a b : State} :
    (Host.Outcome.next a : Host.Outcome State Fault Refusal) = .next b ↔ a = b :=
  ⟨fun h => by cases h; rfl, fun h => by rw [h]⟩

end Sys2Proof.Machine
end

