-- ==== Sys2Proof/Laws/Passes.lean ====
section
/-! SUPPORT. Passes over panels: what a pass makes of each panel, and what it does to the lines. -/

namespace Sys2Proof.Machine

/-- What a pass makes of one panel: the share's changes, then its marks. -/
def passed (f : Nat → Panel → Panel × List Mark) (id : Nat) (p : Panel) : Panel := (f id p).1.mark (f id p).2

theorem passPanel_fst (w : DecideWhen) (b : Bool) (f : Nat → Panel → Panel × List Mark) (id : Nat) (p : Panel)
    (ls : Four LineUnit) : (passPanel w b f id p ls).1 = passed f id p := rfl

/-- A line changes only by the draw decision of a panel of that line. -/
theorem passPanel_snd (w : DecideWhen) (b : Bool) (f : Nat → Panel → Panel × List Mark) (id : Nat) (p : Panel)
    (ls : Four LineUnit) :
    (passPanel w b f id p ls).2 = ls ∨
      (passPanel w b f id p ls).2 = ls.modify (lineOf id) fun l => l.decideFor id (passed f id p) b := by
  simp only [passPanel]
  split
  · exact .inr rfl
  · exact .inl rfl

/-- A pass maps every panel by itself, whatever it queues. -/
theorem passAll_fst (w : DecideWhen) (b : Bool) (f : Nat → Panel → Panel × List Mark) (t : Table Panel)
    (ls : Four LineUnit) : (passAll w b f t ls).1 = t.mapVals (passed f) := by
  induction t generalizing ls with
  | nil => rfl
  | cons e t ih =>
    obtain ⟨k, p⟩ := e
    simp only [passAll, Table.mapVals, ih]
    rfl

/-- The panels after a pass. -/
@[simp] theorem State.pass_panels (s : State) (w : DecideWhen) (b : Bool) (f : Nat → Panel → Panel × List Mark) :
    (s.pass w b f).panels = s.panels.mapVals (passed f) := by
  simp only [State.pass]
  exact passAll_fst w b f s.panels s.lines

/-- What holds of the lines and is kept by every draw decision of a panel of the table holds after a pass. -/
theorem passAll_lines {Q : Four LineUnit → Prop} (w : DecideWhen) (b : Bool) (f : Nat → Panel → Panel × List Mark)
    (t : Table Panel)
    (hd : ∀ e ∈ t, ∀ ls, Q ls → Q (ls.modify (lineOf e.1) fun l => l.decideFor e.1 (passed f e.1 e.2) b))
    (ls : Four LineUnit) (h : Q ls) : Q (passAll w b f t ls).2 := by
  induction t generalizing ls with
  | nil => exact h
  | cons e t ih =>
    obtain ⟨k, p⟩ := e
    simp only [passAll]
    refine ih (fun e he => hd e (List.mem_cons_of_mem _ he)) _ ?_
    rcases passPanel_snd w b f k p ls with hp | hp
    · rw [hp]; exact h
    · rw [hp]; exact hd (k, p) (List.mem_cons_self ..) ls h

theorem State.pass_lines {Q : Four LineUnit → Prop} (s : State) (w : DecideWhen) (b : Bool)
    (f : Nat → Panel → Panel × List Mark)
    (hd : ∀ e ∈ s.panels, ∀ ls, Q ls → Q (ls.modify (lineOf e.1) fun l => l.decideFor e.1 (passed f e.1 e.2) b))
    (h : Q s.lines) : Q (s.pass w b f).lines := by
  simp only [State.pass]
  exact passAll_lines w b f s.panels hd s.lines h

/-- The panels after a pass over one panel. -/
theorem State.passOne_panels (s : State) (id : Nat) (w : DecideWhen) (b : Bool)
    (f : Nat → Panel → Panel × List Mark) :
    (s.passOne id w b f).panels =
      match s.panels.look id with
      | some p => s.panels.put id (passed f id p)
      | none => s.panels := by
  simp only [State.passOne]
  split <;> rename_i h <;> simp [h, passPanel_fst]

/-- The lines after a pass over one panel. -/
theorem State.passOne_lines (s : State) (id : Nat) (w : DecideWhen) (b : Bool)
    (f : Nat → Panel → Panel × List Mark) :
    (s.passOne id w b f).lines = s.lines ∨
      ∃ p, s.panels.look id = some p ∧
        (s.passOne id w b f).lines = s.lines.modify (lineOf id) fun l => l.decideFor id (passed f id p) b := by
  simp only [State.passOne]
  split
  · exact .inl rfl
  · rename_i p hp
    rcases passPanel_snd w b f id p s.lines with h | h
    · exact .inl h
    · exact .inr ⟨p, hp, h⟩

/-- A draw decision writes the queue alone. -/
@[simp] theorem LineUnit.decideFor_frame (l : LineUnit) (id : Nat) (p : Panel) (b : Bool) :
    (l.decideFor id p b).exch = l.exch ∧ (l.decideFor id p b).job = l.job ∧ (l.decideFor id p b).slots = l.slots ∧
    (l.decideFor id p b).held = l.held ∧ (l.decideFor id p b).sweepK = l.sweepK ∧
    (l.decideFor id p b).sweepDue = l.sweepDue ∧ (l.decideFor id p b).alert = l.alert := by
  simp only [LineUnit.decideFor]
  split <;> simp

/-- Two shares in order make of a panel what the second makes of the first's work, with both shares' marks. -/
theorem passed_andThen (f g : Nat → Panel → Panel × List Mark) (id : Nat) (p : Panel) :
    passed (andThen f g) id p = (g id (f id p).1).1.mark ((f id p).2 ++ (g id (f id p).1).2) := rfl

/-! ### The draw queue (R91, R109) -/

/-- A new entry joins the tail of its class: behind every entry of its class or a higher one, ahead of the first lower. -/
theorem enqueueEntry_split (e : Entry) {a b : List Entry} (ha : ∀ x ∈ a, e.cls.rank ≤ x.cls.rank)
    (hb : ∀ x, b.head? = some x → x.cls.rank < e.cls.rank) : enqueueEntry e (a ++ b) = a ++ e :: b := by
  induction a with
  | nil => cases b with
    | nil => rfl
    | cons x b => simp [enqueueEntry, hb x rfl]
  | cons y a ih =>
    have hy := ha y (.head _)
    simp [enqueueEntry, Nat.not_lt.mpr hy, ih fun x hx => ha x (.tail _ hx)]

/-- The entry of a panel that stands in a queue once. -/
theorem entryOf_split {id : Nat} {e : Entry} {x y : List Entry} (he : e.panel = id) (hx : ∀ z ∈ x, z.panel ≠ id) :
    entryOf (x ++ e :: y) id = some e := by
  have h : x.find? (fun e => decide (e.panel = id)) = none := List.find?_eq_none.mpr fun z hz => by simp [hx z hz]
  simp [entryOf, List.find?_append, h, he]

theorem removeEntry_split {id : Nat} {e : Entry} {x y : List Entry} (he : e.panel = id)
    (hz : ∀ z ∈ x ++ y, z.panel ≠ id) : removeEntry (x ++ e :: y) id = x ++ y := by
  have h : ∀ l : List Entry, (∀ z ∈ l, z.panel ≠ id) → l.filter (fun e => decide (e.panel ≠ id)) = l :=
    fun l hl => List.filter_eq_self.mpr fun z hz => by simp [hl z hz]
  simp only [removeEntry, List.filter_append, List.filter_cons]
  rw [h x fun z hx => hz z (List.mem_append.mpr (.inl hx)), h y fun z hy => hz z (List.mem_append.mpr (.inr hy))]
  simp [he]

theorem forceEntry_other {id : Nat} {l : List Entry} (h : ∀ z ∈ l, z.panel ≠ id) : forceEntry id l = l := by
  induction l with
  | nil => rfl
  | cons y l ih => simp [forceEntry, h y (.head _), ih fun z hz => h z (.tail _ hz)]

theorem forceEntry_split {id : Nat} {e : Entry} {x y : List Entry} (he : e.panel = id)
    (hz : ∀ z ∈ x ++ y, z.panel ≠ id) : forceEntry id (x ++ e :: y) = x ++ { e with full := true } :: y := by
  induction x with
  | nil => simpa [forceEntry, he] using forceEntry_other (l := y) hz
  | cons w x ih =>
    simp [forceEntry, hz w (.head _), ih fun z h => hz z (.tail _ h)]

end Sys2Proof.Machine
end

