-- ==== Sys2Proof/Laws/Arbiter.lean ====
section
/-! SUPPORT. The arbiter: when it leaves the state alone, and what it can do to panels and lines. -/

namespace Sys2Proof.Machine

theorem gaveWork_self (l : LineUnit) : gaveWork l l = false := by
  simp only [gaveWork]
  cases l.exch <;> cases l.job <;> simp

/-- No line has changed: the arbiter has no work. -/
theorem State.settle_same {s old : State} (h : s.lines = old.lines) : s.settle old = s := by
  have hl : ∀ i, s.line i = old.line i := fun i => by simp [State.line, h]
  have hs : ∀ i, s.settleLine old i = s := fun i => by simp [State.settleLine, hl i, gaveWork_self]
  simp [State.settle, hs]

/-- What one grant, poll or probe makes of a state, the arbiter's whole repertoire: `P` is kept by a run of the arbiter
when each of its moves keeps it. -/
theorem State.pick_keeps {P : State → Prop} (i : Fin 4)
    (halert : ∀ s a, P s → (s.line i).exch = none → (s.line i).job = none → (s.line i).alert = some a →
      P (s.setLine i { s.line i with alert := none, exch := some ⟨.generalAlert a, 127, false, false⟩ }))
    (hpoll : ∀ s id p, P s → s.panels.look id = some p → s.choice i = some (.poll id) →
      P (s.updLine i fun l => { l with exch := some ⟨.poll (s.brightness p), id, false, false⟩ }))
    (hprobe : ∀ s id, P s → s.choice i = some (.probe id) →
      P (s.setLine i { s.line i with exch := some ⟨.select true, id, false, false⟩ }))
    (hgrant : ∀ s e p, P s → s.panels.look e.panel = some p → s.choice i = some (.grant e) →
      P (s.beginJob i e p))
    (hdrop : ∀ s e, P s → s.choice i = some (.grant e) →
      P (s.setLine i { s.line i with queue := removeEntry (s.line i).queue e.panel }))
    (n : Nat) (s : State) (h : P s) : P (s.pick i n) := by
  induction n generalizing s with
  | zero => exact h
  | succ n ih =>
    simp only [State.pick]
    split
    · exact h
    · rename_i hfree
      simp only [Bool.or_eq_true, Option.isSome_iff_ne_none, not_or, not_not] at hfree
      split
      · rename_i a ha; exact halert s a h hfree.1 hfree.2 ha
      · split
        · exact h
        · rename_i id hc
          simp only [State.sendPoll]
          split
          · rename_i p hp; exact hpoll s id p h hp hc
          · exact h
        · rename_i id hc; exact hprobe s id h hc
        · rename_i e hc
          split
          · exact h
          · rename_i p hp
            split
            · exact hgrant s e p h hp hc
            · exact ih _ (hdrop s e h hc)

end Sys2Proof.Machine
end

