-- ==== Sys2Proof/Laws/Decisions.lean ====
section
/-! SUPPORT. What draw decisions make of the queues: one decision, a pass over a panel, and a pass over every panel. -/

namespace Sys2Proof.Machine

/-! ### One decision on one queue -/

/-- Where a new entry stands: behind the entries of its class or higher, ahead of the first lower one. -/
theorem enqueueEntry_exists (y : Entry) (q : List Entry) : ∃ a b, q = a ++ b ∧ enqueueEntry y q = a ++ y :: b ∧
    (∀ x ∈ a, y.cls.rank ≤ x.cls.rank) ∧ ∀ x, b.head? = some x → x.cls.rank < y.cls.rank := by
  induction q with
  | nil => exact ⟨[], [], rfl, rfl, nofun, nofun⟩
  | cons x q ih =>
    by_cases h : x.cls.rank < y.cls.rank
    · exact ⟨[], x :: q, rfl, by simp [enqueueEntry, h], nofun, fun z hz => by cases hz; exact h⟩
    · obtain ⟨a, b, hq, he, ha, hb⟩ := ih
      refine ⟨x :: a, b, by simp [hq], by simp [enqueueEntry, h, he], ?_, hb⟩
      intro z hz
      rcases List.mem_cons.mp hz with rfl | hz
      · exact Nat.not_lt.mp h
      · exact ha z hz

/-- The entry of a panel in a queue where no panel stands twice. -/
theorem exists_split {q : List Entry} {id : Nat} {e : Entry} (hn : (q.map (·.panel)).Nodup) (h : entryOf q id = some e) :
    e.panel = id ∧ ∃ x y, q = x ++ e :: y ∧ ∀ z ∈ x ++ y, z.panel ≠ id := by
  have hp : e.panel = id := by simpa using List.find?_some h
  obtain ⟨x, y, rfl⟩ := List.append_of_mem (List.mem_of_find?_eq_some h)
  refine ⟨hp, x, y, rfl, fun z hz => ?_⟩
  rw [(List.perm_middle.map Entry.panel).nodup_iff, List.map_cons, List.nodup_cons] at hn
  rw [← hp]
  intro hz'
  exact hn.1 (hz' ▸ List.mem_map_of_mem hz)

/-- A queue with one entry put at the tail of its class, where none of its panel stands. -/
theorem queueMade.insert {look : Nat → Option Panel} {forced : Nat → Bool} {i : Fin 4} {old mid : List Entry} {y : Entry}
    (hnd : (mid.map (·.panel)).Nodup) (hy : y ∉ old) (hyp : ∀ z ∈ mid, z.panel ≠ y.panel)
    (hsub : (mid.filter (· ∈ old)).Sublist old)
    (hstay : ∀ e ∈ old, e.panel = y.panel ∨ ∃ x ∈ mid, x.panel = e.panel)
    (hnew : ∀ x ∈ y :: mid, x ∉ old → ∃ q, look x.panel = some q ∧ q.needsDraw = true ∧
      q.line.state.queueable = true ∧
      ((∀ e ∈ old, e.panel ≠ x.panel) → x = ⟨x.panel, q.needClass, forced x.panel⟩ ∧ lineOf x.panel = i) ∧
      ∀ e ∈ old, e.panel = x.panel → x.full = (e.full || forced x.panel) ∧
        (x.cls = e.cls ∨ e.cls.rank < q.needClass.rank ∧ x.cls = q.needClass))
    (hord : classOrdered old → classOrdered mid ∧
      mid.Pairwise fun x y => x.joined old → y ∈ old → y.cls.rank < x.cls.rank) :
    queueMade look forced i old (enqueueEntry y mid) := by
  obtain ⟨a, b, rfl, he, ha, hb⟩ := enqueueEntry_exists y mid
  rw [he]
  have hperm : (a ++ y :: b).Perm (y :: (a ++ b)) := List.perm_middle
  refine ⟨?_, ?_, ?_, ?_, ?_⟩
  · rw [(hperm.map Entry.panel).nodup_iff, List.map_cons, List.nodup_cons]
    refine ⟨fun h => ?_, hnd⟩
    obtain ⟨z, hz, hzp⟩ := List.mem_map.mp h
    exact hyp z hz hzp
  · simpa [List.filter_append, List.filter_cons, hy] using hsub
  · intro e hm
    rcases hstay e hm with h | ⟨x, hx, h⟩
    · exact ⟨y, by simp, h.symm⟩
    · exact ⟨x, hperm.mem_iff.mpr (.tail _ hx), h⟩
  · exact fun x hx => hnew x (hperm.mem_iff.mp hx)
  · intro ho
    obtain ⟨hc, ht⟩ := hord ho
    have hlow : ∀ x ∈ b, x.cls.rank < y.cls.rank := by
      cases b with
      | nil => nofun
      | cons z b =>
        have hz := hb z rfl
        intro x hx
        rcases List.mem_cons.mp hx with rfl | hx
        · exact hz
        · have := List.pairwise_cons.mp (List.pairwise_append.mp hc).2.1
          exact lt_of_le_of_lt (this.1 x hx) hz
    constructor
    · obtain ⟨h1, h2, h3⟩ := List.pairwise_append.mp hc
      refine List.pairwise_append.mpr ⟨h1, List.pairwise_cons.mpr ⟨fun x hx => (hlow x hx).le, h2⟩, ?_⟩
      intro x hx z hz
      rcases List.mem_cons.mp hz with rfl | hz
      · exact ha x hx
      · exact h3 x hx z hz
    · obtain ⟨h1, h2, h3⟩ := List.pairwise_append.mp ht
      refine List.pairwise_append.mpr ⟨h1, List.pairwise_cons.mpr ⟨fun x hx _ _ => hlow x hx, h2⟩, ?_⟩
      intro x hx z hz
      rcases List.mem_cons.mp hz with rfl | hz
      · exact fun _ h => absurd h hy
      · exact h3 x hx z hz

theorem queueMade.refl (look : Nat → Option Panel) (forced : Nat → Bool) (i : Fin 4) {q : List Entry}
    (h : (q.map (·.panel)).Nodup) : queueMade look forced i q q := by
  refine ⟨h, List.filter_sublist, fun e he => ⟨e, he, rfl⟩, fun x hx hn => absurd hx hn, fun ho => ⟨ho, ?_⟩⟩
  exact List.Pairwise.imp_of_mem (R := fun _ _ => True)
    (fun {x} {y} hx _ _ hj => absurd (hj x hx rfl) (Nat.lt_irrefl _)) (List.pairwise_of_forall fun _ _ => trivial)

/-- Two entries of one panel in a queue where no panel stands twice. -/
theorem eq_of_panel {q : List Entry} (h : (q.map (·.panel)).Nodup) {e x : Entry} (he : e ∈ q) (hx : x ∈ q)
    (hp : e.panel = x.panel) : e = x := List.inj_on_of_nodup_map h he hx hp

/-- One draw decision for a panel of the line that has not been decided for yet. -/
theorem queueMade.decided {look : Nat → Option Panel} {forced : Nat → Bool} {i : Fin 4} {old new : List Entry} {id : Nat}
    {q : Panel} (h : queueMade look forced i old new) (ho : (old.map (·.panel)).Nodup) (hq : look id = some q)
    (hn : q.needsDraw = true) (hs : q.line.state.queueable = true) (hi : lineOf id = i)
    (fresh : ∀ x ∈ new, x.panel = id → x ∈ old) :
    queueMade look forced i old (queueAfter new id q.needClass (forced id)) := by
  obtain ⟨hnd, hsub, hstay, hnew, hord⟩ := h
  unfold queueAfter
  split
  · rename_i hnone
    have hne : ∀ z ∈ new, z.panel ≠ id := fun z hz => by
      simpa using (List.find?_eq_none.mp hnone) z hz
    have hold : ∀ e ∈ old, e.panel ≠ id := fun e he hp => by
      obtain ⟨x, hx, hxp⟩ := hstay e he
      exact hne x hx (hxp.trans hp)
    refine queueMade.insert hnd (fun hm => hold _ hm rfl) hne hsub (fun e he => .inr (hstay e he)) ?_ hord
    intro x hx hxo
    rcases List.mem_cons.mp hx with rfl | hx
    · exact ⟨q, hq, hn, hs, fun _ => ⟨rfl, hi⟩, fun e he hp => absurd hp (hold e he)⟩
    · exact hnew x hx hxo
  · rename_i e hsome
    obtain ⟨hp, x1, x2, rfl, hz⟩ := exists_split hnd hsome
    have heo : e ∈ old := fresh e (by simp) hp
    have honly : ∀ e' ∈ old, e'.panel = id → e' = e := fun e' he' hp' => eq_of_panel ho he' heo (hp'.trans hp.symm)
    have hperm : (x1 ++ e :: x2).Perm (e :: (x1 ++ x2)) := List.perm_middle
    have hmem : ∀ z ∈ x1 ++ x2, z ∈ x1 ++ e :: x2 := fun z h => hperm.mem_iff.mpr (.tail _ h)
    have hss : (x1 ++ x2).Sublist (x1 ++ e :: x2) :=
      List.Sublist.append (List.Sublist.refl _) (List.sublist_cons_self _ _)
    split
    · rename_i hlt
      rw [removeEntry_split hp hz]
      refine queueMade.insert (hnd.sublist (hss.map _)) (fun hm => ?_) hz ((hss.filter _).trans hsub) ?_ ?_ ?_
      · have := honly _ hm rfl
        rw [← this] at hlt
        exact Nat.lt_irrefl _ hlt
      · intro e' he'
        obtain ⟨x, hx, hxp⟩ := hstay e' he'
        rcases List.mem_cons.mp (hperm.mem_iff.mp hx) with rfl | hx
        · exact .inl (hxp.symm.trans hp)
        · exact .inr ⟨x, hx, hxp⟩
      · intro x hx hxo
        rcases List.mem_cons.mp hx with rfl | hx
        · refine ⟨q, hq, hn, hs, fun hno => absurd hp (hno e heo), fun e' he' hp' => ?_⟩
          rw [honly e' he' hp']
          exact ⟨rfl, .inr ⟨hlt, rfl⟩⟩
        · exact hnew x (hmem x hx) hxo
      · exact fun hc => ⟨(hord hc).1.sublist hss, (hord hc).2.sublist hss⟩
    · split
      · rename_i hf
        rw [forceEntry_split hp hz]
        have hperm' : (x1 ++ { e with full := true } :: x2).Perm ({ e with full := true } :: (x1 ++ x2)) :=
          List.perm_middle
        by_cases hfull : e.full = true
        · have : ({ e with full := true } : Entry) = e := by cases e; simp_all
          rw [this]
          exact ⟨hnd, hsub, hstay, hnew, hord⟩
        have hy : ({ e with full := true } : Entry) ∉ old := fun hm => by
          have := honly _ hm hp
          exact hfull (by rw [← this])
        refine ⟨?_, ?_, ?_, ?_, ?_⟩
        · simpa using hnd
        · have := (hss.filter (fun x => decide (x ∈ old))).trans hsub
          simpa [List.filter_append, List.filter_cons, hy] using this
        · intro e' he'
          obtain ⟨x, hx, hxp⟩ := hstay e' he'
          rcases List.mem_cons.mp (hperm.mem_iff.mp hx) with rfl | hx
          · exact ⟨{ x with full := true }, by simp, hxp⟩
          · exact ⟨x, hperm'.mem_iff.mpr (.tail _ hx), hxp⟩
        · intro x hx hxo
          rcases List.mem_cons.mp (hperm'.mem_iff.mp hx) with rfl | hx
          · refine ⟨q, by simpa [hp] using hq, hn, hs, fun hno => absurd rfl (hno e heo), fun e' he' hp' => ?_⟩
            rw [honly e' he' (hp'.trans hp)]
            exact ⟨by simp [hp, hf], .inl rfl⟩
          · exact hnew x (hmem x hx) hxo
        · intro hc
          obtain ⟨h1, h2⟩ := hord hc
          obtain ⟨c1, c2, c3⟩ := List.pairwise_append.mp h1
          obtain ⟨t1, t2, t3⟩ := List.pairwise_append.mp h2
          have c2' := List.pairwise_cons.mp c2
          refine ⟨List.pairwise_append.mpr ⟨c1, List.pairwise_cons.mpr ⟨c2'.1, c2'.2⟩, ?_⟩,
            List.pairwise_append.mpr ⟨t1, List.pairwise_cons.mpr ⟨?_, (List.pairwise_cons.mp t2).2⟩, ?_⟩⟩
          · intro x hx z hz'
            rcases List.mem_cons.mp hz' with rfl | hz'
            · exact c3 x hx e (.head _)
            · exact c3 x hx z (.tail _ hz')
          · exact fun z _ hj => absurd (hj e heo rfl) (Nat.lt_irrefl _)
          · intro x hx z hz'
            rcases List.mem_cons.mp hz' with rfl | hz'
            · exact fun _ hm => absurd hm hy
            · exact t3 x hx z (.tail _ hz')
      · exact ⟨hnd, hsub, hstay, hnew, hord⟩

/-- What stands in a queue after a decision: what stood there, and the entry of the panel decided for. -/
theorem mem_queueAfter {q : List Entry} {id : Nat} {need : DrawClass} {b : Bool} {x : Entry}
    (h : x ∈ queueAfter q id need b) : x ∈ q ∨ x.panel = id := by
  have hq : ∀ (y : Entry) (l : List Entry), y.panel = id → x ∈ enqueueEntry y l → x ∈ l ∨ x.panel = id := by
    intro y l hy hx
    obtain ⟨a, b, rfl, he, -, -⟩ := enqueueEntry_exists y l
    rw [he] at hx
    rcases List.mem_cons.mp (List.perm_middle.mem_iff.mp hx) with rfl | hx
    · exact .inr hy
    · exact .inl hx
  have hf : ∀ l : List Entry, x ∈ forceEntry id l → x ∈ l ∨ x.panel = id := by
    intro l
    induction l with
    | nil => nofun
    | cons z l ih =>
      intro hx
      rcases List.mem_cons.mp hx with hx | hx
      · by_cases hz : z.panel = id
        · exact .inr (by rw [hx]; simp [hz])
        · exact .inl (by rw [hx]; simp [hz])
      · exact (ih hx).imp (.tail _) fun h => h
  unfold queueAfter at h
  split at h
  · exact hq _ _ rfl h
  · split at h
    · rcases hq _ _ rfl h with h | h
      · exact .inl (List.mem_of_mem_filter h)
      · exact .inr h
    · split at h
      · exact hf _ h
      · exact .inl h

/-- A queue whose new and risen entries stand in order of id keeps that order when a higher id is decided for. -/
theorem inOrder_decided {old new : List Entry} {id : Nat} {need : DrawClass} {b : Bool}
    (h : new.Pairwise fun x y => x.joined old → y.joined old → x.cls = y.cls → x.panel < y.panel)
    (hnd : (new.map (·.panel)).Nodup) (hc : classOrdered new) (fresh : ∀ x ∈ new, x.panel = id → x ∈ old)
    (hlt : ∀ x ∈ new, x.joined old → x.panel < id) :
    (queueAfter new id need b).Pairwise fun x y => x.joined old → y.joined old → x.cls = y.cls → x.panel < y.panel := by
  have hins : ∀ (y : Entry) (mid : List Entry), y.panel = id → mid.Sublist new →
      (enqueueEntry y mid).Pairwise fun x y => x.joined old → y.joined old → x.cls = y.cls → x.panel < y.panel := by
    intro y mid hy hs
    obtain ⟨a, c, rfl, he, ha, hb⟩ := enqueueEntry_exists y mid
    rw [he]
    obtain ⟨p1, p2, p3⟩ := List.pairwise_append.mp (h.sublist hs)
    have hlow : ∀ x ∈ c, x.cls.rank < y.cls.rank := by
      have hcc := (List.pairwise_append.mp (hc.sublist hs)).2.1
      cases c with
      | nil => nofun
      | cons z c =>
        intro x hx
        rcases List.mem_cons.mp hx with rfl | hx
        · exact hb _ rfl
        · exact lt_of_le_of_lt ((List.pairwise_cons.mp hcc).1 x hx) (hb z rfl)
    refine List.pairwise_append.mpr ⟨p1, List.pairwise_cons.mpr ⟨fun x hx _ _ he => ?_, p2⟩, ?_⟩
    · have := hlow x hx
      rw [he] at this
      exact absurd this (Nat.lt_irrefl _)
    · intro x hx z hz
      rcases List.mem_cons.mp hz with rfl | hz
      · exact fun hj _ _ => hy ▸ hlt x (hs.subset (List.mem_append.mpr (.inl hx))) hj
      · exact p3 x hx z hz
  unfold queueAfter
  split
  · exact hins _ _ rfl (List.Sublist.refl _)
  · rename_i e hsome
    obtain ⟨hp, x1, x2, rfl, hz⟩ := exists_split hnd hsome
    split
    · exact hins _ _ rfl List.filter_sublist
    · split
      · rw [forceEntry_split hp hz]
        have heo : e ∈ old := fresh e (by simp) hp
        obtain ⟨p1, p2, p3⟩ := List.pairwise_append.mp h
        have hno : ¬ ({ e with full := true } : Entry).joined old := fun hj => Nat.lt_irrefl _ (hj e heo rfl)
        refine List.pairwise_append.mpr ⟨p1, List.pairwise_cons.mpr ⟨fun x _ hj => absurd hj hno,
          (List.pairwise_cons.mp p2).2⟩, ?_⟩
        intro x hx z hzm
        rcases List.mem_cons.mp hzm with rfl | hzm
        · exact fun _ hj => absurd hj hno
        · exact p3 x hx z (.tail _ hzm)
      · exact h

/-! ### The decisions of a pass -/

/-- What is known of the lines within a pass over panels whose ids all lie above those decided for: `bound` says which
ids may have been. -/
structure DecidedTo (s : State) (look : Nat → Option Panel) (forced : Nat → Bool) (bound : Nat → Prop)
    (ls : Four LineUnit) : Prop where
  frame : ∀ i, ls.get i = { s.line i with queue := (ls.get i).queue }
  made : ∀ i, ((s.line i).queue.map (·.panel)).Nodup →
    queueMade look forced i (s.line i).queue (ls.get i).queue ∧
      (∀ x ∈ (ls.get i).queue, x ∉ (s.line i).queue → bound x.panel) ∧
      (classOrdered (s.line i).queue → (ls.get i).queue.Pairwise fun x y =>
        x.joined (s.line i).queue → y.joined (s.line i).queue → x.cls = y.cls → x.panel < y.panel)

theorem DecidedTo.start (s : State) (look : Nat → Option Panel) (forced : Nat → Bool) :
    DecidedTo s look forced (fun _ => False) s.lines := by
  refine ⟨fun i => rfl, fun i h => ⟨queueMade.refl _ _ _ h, fun x hx hn => absurd hx hn, fun _ => ?_⟩⟩
  exact List.Pairwise.imp_of_mem (R := fun _ _ => True)
    (fun {x} {y} hx _ _ hj => absurd (hj x hx rfl) (Nat.lt_irrefl _)) (List.pairwise_of_forall fun _ _ => trivial)

/-- One draw decision, of an id above all decided for. -/
theorem DecidedTo.next {s : State} {look : Nat → Option Panel} {forced : Nat → Bool} {bound bound' : Nat → Prop}
    {ls : Four LineUnit} {id : Nat} {q : Panel} (h : DecidedTo s look forced bound ls) (hq : look id = some q)
    (hb : ∀ k, bound k → k < id) (hb' : ∀ k, bound k ∨ k = id → bound' k) :
    DecidedTo s look forced bound' (ls.modify (lineOf id) fun l => l.decideFor id q (forced id)) := by
  by_cases hd : q.needsDraw = true ∧ q.line.state.queueable = true
  · have he : ∀ l : LineUnit, l.decideFor id q (forced id) =
        { l with queue := queueAfter l.queue id q.needClass (forced id) } := fun l => by
      simp [LineUnit.decideFor, hd.1, hd.2]
    simp only [he]
    constructor
    · intro i
      by_cases hi : i = lineOf id
      · subst hi
        rw [Four.get_modify_same]
        have := h.frame (lineOf id)
        generalize ls.get (lineOf id) = m at this ⊢
        rw [this]
      · rw [Four.get_modify_other _ _ hi]; exact h.frame i
    · intro i hn
      obtain ⟨hm, hbd, hord⟩ := h.made i hn
      by_cases hi : i = lineOf id
      · subst hi
        rw [Four.get_modify_same]
        have fresh : ∀ x ∈ (ls.get (lineOf id)).queue, x.panel = id → x ∈ (s.line (lineOf id)).queue := by
          intro x hx hp
          by_contra hno
          exact Nat.lt_irrefl _ (hp ▸ hb _ (hbd x hx hno))
        refine ⟨hm.decided hn hq hd.1 hd.2 rfl fresh, ?_, fun hc => ?_⟩
        · intro x hx hno
          rcases mem_queueAfter hx with hx | hx
          · exact hb' _ (.inl (hbd x hx hno))
          · exact hb' _ (.inr hx)
        · refine inOrder_decided (hord hc) hm.1 (hm.2.2.2.2 hc).1 fresh fun x hx hj => hb _ (hbd x hx fun hm => ?_)
          exact Nat.lt_irrefl _ (hj x hm rfl)
      · rw [Four.get_modify_other _ _ hi]
        exact ⟨hm, fun x hx hno => hb' _ (.inl (hbd x hx hno)), hord⟩
  · have he : ∀ l : LineUnit, l.decideFor id q (forced id) = l := fun l => by
      simp only [LineUnit.decideFor, Bool.and_eq_true, hd, if_false]
    simp only [he]
    have hid : ls.modify (lineOf id) (fun l => l) = ls := Four.ext_get fun i => by
      by_cases hi : i = lineOf id
      · subst hi; rw [Four.get_modify_same]
      · rw [Four.get_modify_other _ _ hi]
    rw [hid]
    exact ⟨h.frame, fun i hn => ⟨(h.made i hn).1, fun x hx hno => hb' _ (.inl ((h.made i hn).2.1 x hx hno)),
      (h.made i hn).2.2⟩⟩

theorem DecidedTo.wider {s : State} {look : Nat → Option Panel} {forced : Nat → Bool} {bound bound' : Nat → Prop}
    {ls : Four LineUnit} (h : DecidedTo s look forced bound ls) (hb : ∀ k, bound k → bound' k) :
    DecidedTo s look forced bound' ls :=
  ⟨h.frame, fun i hn => ⟨(h.made i hn).1, fun x hx hno => hb _ ((h.made i hn).2.1 x hx hno), (h.made i hn).2.2⟩⟩

/-- One panel's share of a pass. -/
theorem DecidedTo.share {s : State} {look : Nat → Option Panel} {forced : Nat → Bool} {bound bound' : Nat → Prop}
    {ls : Four LineUnit} {id : Nat} {p : Panel} {w : DecideWhen} {f : Nat → Panel → Panel × List Mark}
    (h : DecidedTo s look forced bound ls) (hq : look id = some (passed f id p))
    (hb : ∀ k, bound k → k < id) (hb' : ∀ k, bound k ∨ k = id → bound' k) :
    DecidedTo s look forced bound' (passPanel w (forced id) f id p ls).2 := by
  rcases passPanel_snd w (forced id) f id p ls with e | e <;> rw [e]
  · exact h.wider fun k hk => hb' k (.inl hk)
  · exact h.next hq hb hb'

theorem DecidedTo.all {s : State} {look : Nat → Option Panel} {forced : Nat → Bool} {w : DecideWhen} {b : Bool}
    {f : Nat → Panel → Panel × List Mark} (t : Table Panel) {bound : Nat → Prop} {ls : Four LineUnit}
    (h : DecidedTo s look forced bound ls) (hs : t.sorted = true) (hb : ∀ e ∈ t, ∀ k, bound k → k < e.1)
    (hq : ∀ e ∈ t, look e.1 = some (passed f e.1 e.2)) (hf : ∀ e ∈ t, forced e.1 = b) :
    DecidedTo s look forced (fun _ => True) (passAll w b f t ls).2 := by
  induction t generalizing ls bound with
  | nil => exact h.wider fun _ _ => trivial
  | cons e t ih =>
    obtain ⟨k, p⟩ := e
    have hab : Table.above t k = true := hs
    simp only [passAll]
    refine ih (bound := fun n => bound n ∨ n = k) ?_ (Table.sorted_of_above hab) ?_
      (fun e he => hq e (.tail _ he)) (fun e he => hf e (.tail _ he))
    · rw [← hf (k, p) (.head _)]
      exact h.share (hq (k, p) (.head _)) (hb (k, p) (.head _)) fun _ h => h
    · rintro e he n (hn | rfl)
      · exact hb e (.tail _ he) n hn
      · exact Table.lt_of_above hab e he

/-- From what is known at the end of a pass to what an event has made of the queues. -/
theorem DecidedTo.entriesMade {s u : State} {forced : Nat → Bool} {bound : Nat → Prop}
    (h : s.panels.sorted = true → DecidedTo s u.panels.look forced bound u.lines)
    (hf : ∀ i, u.line i = { s.line i with queue := (u.line i).queue }) :
    u.entriesMade s forced ∧ u.decidedInOrder s :=
  ⟨fun i => ⟨hf i, fun hs hn => ((h hs).made i hn).1⟩, fun hs i hn hc => ((h hs).made i hn).2.2 hc⟩

/-- A draw decision writes the queue alone. -/
theorem frame_modify {s : State} {ls : Four LineUnit} (h : ∀ i, ls.get i = { s.line i with queue := (ls.get i).queue })
    (id : Nat) (q : Panel) (b : Bool) (i : Fin 4) :
    (ls.modify (lineOf id) fun l => l.decideFor id q b).get i =
      { s.line i with queue := ((ls.modify (lineOf id) fun l => l.decideFor id q b).get i).queue } := by
  by_cases hi : i = lineOf id
  · subst hi
    rw [Four.get_modify_same]
    have := h (lineOf id)
    generalize ls.get (lineOf id) = m at this ⊢
    rw [this]
    simp only [LineUnit.decideFor]
    split <;> rfl
  · rw [Four.get_modify_other _ _ hi]; exact h i

/-- What a pass over every panel makes of the queues. -/
theorem State.pass_made (s : State) (w : DecideWhen) (b : Bool) (f : Nat → Panel → Panel × List Mark)
    (forced : Nat → Bool) (hf : ∀ e ∈ s.panels, forced e.1 = b) :
    (s.pass w b f).entriesMade s forced ∧ (s.pass w b f).decidedInOrder s := by
  refine DecidedTo.entriesMade (bound := fun _ => True) (fun hs => ?_) ?_
  · have h : DecidedTo s (s.pass w b f).panels.look forced (fun _ => True) (passAll w b f s.panels s.lines).2 :=
      (DecidedTo.start s _ forced).all s.panels hs (fun _ _ _ h => h.elim)
        (fun e he => by simp [Table.look_of_mem hs he]) hf
    exact h
  · exact State.pass_lines (Q := fun ls => ∀ i, ls.get i = { s.line i with queue := (ls.get i).queue }) s w b f
      (fun e _ ls h => frame_modify h _ _ _) fun _ => rfl

/-- What a pass over one panel makes of the queues. -/
theorem State.passOne_made (s : State) (id : Nat) (w : DecideWhen) (f : Nat → Panel → Panel × List Mark)
    (forced : Nat → Bool) :
    (s.passOne id w (forced id) f).entriesMade s forced ∧ (s.passOne id w (forced id) f).decidedInOrder s := by
  refine DecidedTo.entriesMade (bound := fun _ => True) (fun _ => ?_) ?_
  · cases hp : s.panels.look id with
    | none =>
      have : s.passOne id w (forced id) f = s := by simp [State.passOne, hp]
      rw [this]
      exact (DecidedTo.start s _ forced).wider fun _ h => h.elim
    | some p =>
      have hl : (s.passOne id w (forced id) f).lines = (passPanel w (forced id) f id p s.lines).2 := by
        simp [State.passOne, hp]
      rw [hl]
      exact (DecidedTo.start s _ forced).share (by simp [State.passOne_panels, hp]) (fun _ h => h.elim)
        fun _ _ => trivial
  · rcases State.passOne_lines s id w (forced id) f with h | ⟨p, -, h⟩
    · exact fun i => by simp [State.line, h]
    · intro i
      have := frame_modify (s := s) (ls := s.lines) (fun _ => rfl) id (passed f id p) (forced id) i
      simpa only [State.line, h] using this

/-- The queues count for what they are with any state that has the same lines and, for its draw decisions, the same
panels. -/
theorem State.entriesMade.congr {u v s : State} {forced : Nat → Bool} (h : u.entriesMade s forced)
    (hl : v.lines = u.lines)
    (hp : ∀ id q, u.panels.look id = some q → ∃ q', v.panels.look id = some q' ∧ q'.needsDraw = q.needsDraw ∧
      q'.needClass = q.needClass ∧ q'.line.state = q.line.state) : v.entriesMade s forced := by
  have hli : ∀ i, v.line i = u.line i := fun i => by simp [State.line, hl]
  intro i
  rw [hli i]
  refine ⟨(h i).1, fun hs hn => ?_⟩
  obtain ⟨h1, h2, h3, h4, h5⟩ := (h i).2 hs hn
  refine ⟨h1, h2, h3, fun x hx hno => ?_, h5⟩
  obtain ⟨q, hq, ha, hb, hc, hd⟩ := h4 x hx hno
  obtain ⟨q', hq', e1, e2, e3⟩ := hp _ q hq
  refine ⟨q', hq', e1 ▸ ha, by rw [e3]; exact hb, ?_, ?_⟩
  · rw [e2]; exact hc
  · rw [e2]; exact hd

end Sys2Proof.Machine
end

