-- ==== Sys2Proof/Laws/Requests.lean ====
section
/-! SUPPORT. Requests and the end of an event: what the link unit's run of a request comes to, and what the arbiter,
which picks at the end of an event, can change. -/

namespace Sys2Proof.Machine

/-! ### Running a request -/

/-- A request whose turn it is runs on the link that took it. -/
theorem State.request_of_take {s : State} {f : Frame} {l : Link} (h : s.link.take f = some l) (b : Bool)
    (own : State → State × Answer) : s.request f b own = State.runTaken { s with link := l } f b own := by
  simp [State.request, h]

/-- A request whose turn it is not does nothing. -/
theorem State.request_of_wait {s : State} {f : Frame} (h : s.link.take f = none) (b : Bool)
    (own : State → State × Answer) : s.request f b own = s := by
  simp [State.request, h]

/-- The end of a run: the reply is made of what the owning block answers. -/
theorem State.runTaken_answer {s t : State} {f : Frame} {own : State → State × Answer} {c : Code} {x : ReplyBody}
    (h : own s = (t, some (c, x))) :
    s.runTaken f true own = { t with link := t.link.reply ⟨replyKind f.kind, f.tag, c, x⟩ } := by
  simp [State.runTaken, h]

/-- A body that breaks its length rule. -/
theorem State.runTaken_badLength (s : State) (f : Frame) (own : State → State × Answer) :
    s.runTaken f false own = { s with link := s.link.reply ⟨replyKind f.kind, f.tag, .badLength, .empty⟩ } := by
  simp [State.runTaken, refuse]

/-- The frame that has been taken is the running request, and no reply waited. -/
theorem Link.take_running {l l' : Link} {f : Frame} (h : l.take f = some l') :
    l'.running = some f ∧ l'.waiting = none ∧ l.running = none ∧ l.waiting = none := by
  simp only [Link.take] at h
  split at h
  · cases h
  · rename_i hw
    simp only [Bool.or_eq_true, Option.isSome_iff_ne_none, not_or, not_not] at hw
    split at h
    · cases h; exact ⟨rfl, hw.2, hw.1, hw.2⟩
    · split at h
      · cases h; exact ⟨rfl, hw.2, hw.1, hw.2⟩
      · cases h

@[simp] theorem Link.pump_waiting (l : Link) : l.pump.waiting = l.waiting := by
  simp only [Link.pump]
  (repeat' split) <;> rfl

@[simp] theorem Link.pump_running (l : Link) : l.pump.running = l.running := by
  simp only [Link.pump]
  (repeat' split) <;> rfl

/-- A reply becomes the waiting reply (R156), whether or not its sending begins at once. -/
@[simp] theorem Link.reply_waiting (l : Link) (r : Reply) : (l.reply r).waiting = some ⟨l.stamp, r⟩ := by
  simp [Link.reply]

@[simp] theorem Link.reply_running (l : Link) (r : Reply) : (l.reply r).running = none := by
  simp [Link.reply]

/-! ### Agreement -/

theorem State.panelsAgree.refl (s : State) (f : Panel → Panel) : s.panelsAgree s f := fun _ => rfl

theorem State.panelsAgree.trans {a b c : State} {f : Panel → Panel} (h : a.panelsAgree b f) (k : b.panelsAgree c f) :
    a.panelsAgree c f := fun id => (h id).trans (k id)

theorem State.panelsAgree.same {a b : State} (f : Panel → Panel) (h : a.panels = b.panels) : a.panelsAgree b f :=
  fun id => by rw [h]

/-- Agreement on more is agreement on less. -/
theorem State.panelsAgree.weaken {a b : State} {f g : Panel → Panel} (h : a.panelsAgree b f)
    (hg : ∀ p q, f p = f q → g p = g q) : a.panelsAgree b g := by
  intro id
  have hi := h id
  cases ha : a.panels.look id <;> cases hb : b.panels.look id <;> simp [ha, hb] at hi ⊢
  exact hg _ _ hi

/-- The four lines agree but for what draw decisions and the arbiter write. -/
def State.linesAgree (t s : State) : Prop := ∀ i, (t.line i).apartFromArbiter = (s.line i).apartFromArbiter

theorem State.linesAgree.trans {a b c : State} (h : a.linesAgree b) (k : b.linesAgree c) : a.linesAgree c :=
  fun i => (h i).trans (k i)

theorem State.linesAgree.same {a b : State} (h : a.lines = b.lines) : a.linesAgree b :=
  fun i => by simp [State.line, h]

/-- What a pass leaves of every panel. -/
theorem State.pass_agree (s : State) (w : DecideWhen) (b : Bool) (f : Nat → Panel → Panel × List Mark)
    (g : Panel → Panel) (h : ∀ id p, g (passed f id p) = g p) : (s.pass w b f).panelsAgree s g := by
  intro id
  rw [State.pass_panels, Table.look_mapVals]
  cases s.panels.look id <;> simp [h]

theorem LineUnit.decideFor_apart (l : LineUnit) (id : Nat) (p : Panel) (b : Bool) :
    (l.decideFor id p b).apartFromArbiter = l.apartFromArbiter := by
  simp [LineUnit.apartFromArbiter]

theorem State.pass_linesAgree (s : State) (w : DecideWhen) (b : Bool) (f : Nat → Panel → Panel × List Mark) :
    (s.pass w b f).linesAgree s := by
  refine State.pass_lines (Q := fun ls => ∀ i, (ls.get i).apartFromArbiter = (s.lines.get i).apartFromArbiter) s w b f
    ?_ (fun _ => rfl)
  intro e _ ls hl i
  by_cases hi : i = lineOf e.1
  · subst hi; rw [Four.get_modify_same, LineUnit.decideFor_apart]; exact hl _
  · rw [Four.get_modify_other _ _ hi]; exact hl i

/-! ### The arbiter -/

theorem Panel.beginJob_apart (p : Panel) (e : Entry) : (p.beginJob e).apartFromJob = p.apartFromJob := rfl

theorem State.beginJob_panelsAgree (s : State) (i : Fin 4) (e : Entry) (p : Panel)
    (hp : s.panels.look e.panel = some p) : (s.beginJob i e p).panelsAgree s Panel.apartFromJob := by
  intro id
  simp only [State.beginJob, State.updLine_frame, State.setPanel_panels, Table.look_put]
  split
  · rename_i h; subst h; simp [hp, Panel.beginJob_apart]
  · rfl

/-- The arbiter changes a panel's record by granting it alone. -/
theorem State.pick_panelsAgree (s : State) (i : Fin 4) (n : Nat) : (s.pick i n).panelsAgree s Panel.apartFromJob :=
  State.pick_keeps (P := fun t => t.panelsAgree s Panel.apartFromJob) i
    (fun t a h _ _ _ => by intro id; simpa using h id)
    (fun t id p h _ _ => by intro k; simpa using h k)
    (fun t id h _ => by intro k; simpa using h k)
    (fun t e p h hp _ => (t.beginJob_panelsAgree i e p hp).trans h)
    (fun t e h _ => by intro k; simpa using h k) n s (.refl _ _)

/-- The arbiter of a line changes no other line. -/
theorem State.pick_otherLines (s : State) (i : Fin 4) (n : Nat) : (s.pick i n).otherLines s i :=
  State.pick_keeps (P := fun t => t.otherLines s i) i
    (fun t a h _ _ _ j hj => by rw [State.setLine_line_other _ _ hj]; exact h j hj)
    (fun t id p h _ _ j hj => by rw [State.updLine_line_other _ _ hj]; exact h j hj)
    (fun t id h _ j hj => by rw [State.setLine_line_other _ _ hj]; exact h j hj)
    (fun t e p h _ _ j hj => by
      rw [State.beginJob, State.updLine_line_other _ _ hj]; simpa [State.line] using h j hj)
    (fun t e h _ j hj => by rw [State.setLine_line_other _ _ hj]; exact h j hj) n s (fun _ _ => rfl)

theorem State.pick_linesAgree (s : State) (i : Fin 4) (n : Nat) : (s.pick i n).linesAgree s := by
  have hset : ∀ (t : State) (l : LineUnit), t.linesAgree s → l.apartFromArbiter = (t.line i).apartFromArbiter →
      (t.setLine i l).linesAgree s := by
    intro t l h hl j
    by_cases hj : j = i
    · subst hj; rw [State.setLine_line]; exact hl.trans (h _)
    · rw [State.setLine_line_other _ _ hj]; exact h j
  refine State.pick_keeps (P := fun t => t.linesAgree s) i
    (fun t a h _ _ _ => hset t _ h rfl)
    (fun t id p h _ _ => hset t _ h rfl)
    (fun t id h _ => hset t _ h rfl)
    (fun t e p h _ _ => ?_)
    (fun t e h _ => hset t _ h rfl) n s (fun _ => rfl)
  intro j
  by_cases hj : j = i
  · subst hj; rw [State.beginJob, State.updLine_line]; simpa [State.line, LineUnit.apartFromArbiter] using h j
  · rw [State.beginJob, State.updLine_line_other _ _ hj]; simpa [State.line] using h j

/-- A line that is busy is left to its exchange or job. -/
theorem State.pick_busy (s : State) (i : Fin 4) (n : Nat) (h : (s.line i).exch.isSome || (s.line i).job.isSome) :
    s.pick i n = s := by
  cases n with
  | zero => rfl
  | succ n => simp only [State.pick]; rw [if_pos h]

theorem State.settleLine_panelsAgree (s old : State) (i : Fin 4) :
    (s.settleLine old i).panelsAgree s Panel.apartFromJob := by
  simp only [State.settleLine]
  split
  · exact State.pick_panelsAgree _ _ _
  · exact .refl _ _

theorem State.settleLine_linesAgree (s old : State) (i : Fin 4) : (s.settleLine old i).linesAgree s := by
  simp only [State.settleLine]
  split
  · exact State.pick_linesAgree _ _ _
  · exact fun _ => rfl

theorem State.settleLine_otherLines (s old : State) (i : Fin 4) : (s.settleLine old i).otherLines s i := by
  simp only [State.settleLine]
  split
  · exact State.pick_otherLines _ _ _
  · exact fun _ _ => rfl

/-- At the end of an event the panels keep everything but what a grant writes. -/
theorem State.settle_panelsAgree (s old : State) : (s.settle old).panelsAgree s Panel.apartFromJob :=
  (State.settleLine_panelsAgree _ _ _).trans <| (State.settleLine_panelsAgree _ _ _).trans <|
    (State.settleLine_panelsAgree _ _ _).trans (State.settleLine_panelsAgree _ _ _)

/-- At the end of an event the lines keep everything but what the arbiter writes. -/
theorem State.settle_linesAgree (s old : State) : (s.settle old).linesAgree s :=
  (State.settleLine_linesAgree _ _ _).trans <| (State.settleLine_linesAgree _ _ _).trans <|
    (State.settleLine_linesAgree _ _ _).trans (State.settleLine_linesAgree _ _ _)

/-- A line on which nothing has happened is left alone. -/
theorem State.settleLine_same {s old : State} {i : Fin 4} (h : s.line i = old.line i) : s.settleLine old i = s := by
  simp [State.settleLine, h, gaveWork_self]

/-! ### Every request row -/

/-- A row of the catalogue runs as a request: the length rule of its kind, then its owning block. -/
theorem exec_request {c : Instr} {f : Frame} (hc : c.frame = some f) : ∃ (own : State → State × Answer) (ends : Bool),
    ∀ s, exec c s = .next (if ends then (s.request f (lengthRule f.kind f.body) own).settle s
      else s.request f (lengthRule f.kind f.body) own) := by
  cases c <;> simp only [Instr.frame, Option.some.injEq, reduceCtorEq] at hc
  case unknownKind k t b =>
    split at hc
    · cases hc
    · rename_i hk
      cases hc
      have h1 : catalogue.contains k = false := by revert k; decide
      have h2 : lengthRule k b = true := by
        simp only [lengthRule]
        simp only [requestKind] at hk
        generalize k.toNat = n at hk
        split <;> simp at hk ⊢
      exact ⟨_, false, fun s => by simp only [exec, execUnknownKind, h1, h2]; rfl⟩
  case checkpoint => subst hc; exact ⟨_, false, fun s => rfl⟩
  case lineReset => subst hc; exact ⟨_, false, fun s => rfl⟩
  case status => subst hc; exact ⟨_, false, fun s => rfl⟩
  case panelRead => subst hc; exact ⟨_, false, fun s => rfl⟩
  case eventRead => subst hc; exact ⟨_, false, fun s => rfl⟩
  case routeProbe => subst hc; exact ⟨_, false, fun s => rfl⟩
  case panelDeclare t b =>
    subst hc
    have h : lengthRule 0x02 b = lengthDeclare b := by
      simp only [lengthRule, lengthDeclare]
      by_cases h : b.length = 26 + u8 b 25 <;> simp [h]
    exact ⟨_, true, fun s => by simp only [h]; rfl⟩
  case guideSet t b =>
    subst hc
    have h : lengthRule 0x04 b = lengthGuide b := by
      simp only [lengthRule, lengthGuide]
      by_cases h : b.length = 4 + u8 b 2 + 4 * u8 b 3
      · have h4 : 4 ≤ 4 + u8 b 2 + 4 * u8 b 3 := by omega
        simp [h, h4]
      · simp [h]
    exact ⟨_, true, fun s => by simp only [h]; rfl⟩
  case cabinSet t b =>
    subst hc
    have h : lengthRule 0x17 b = lengthCabin b := by
      simp only [lengthRule, lengthCabin]
      by_cases h : b.length = 5 + u8 b 4 <;> simp [h]
    exact ⟨_, true, fun s => by simp only [h]; rfl⟩
  all_goals (subst hc; exact ⟨_, true, fun s => rfl⟩)

end Sys2Proof.Machine
end

