-- ==== Sys2Proof/Laws/Wire.lean ====
section
/-! SUPPORT. The lengths of the bytes that the controller sends: every field of a page has the width that section 6 and
12.3 give it, so that a page is as long as its header says. -/

namespace Sys2Proof.Machine

@[simp] theorem byte1_length (n : Nat) : (byte1 n).length = 1 := rfl

@[simp] theorem byte2_length (n : Nat) : (byte2 n).length = 2 := rfl

@[simp] theorem byte4_length (n : Nat) : (byte4 n).length = 4 := rfl

@[simp] theorem signed2_length (i : Int) : (signed2 i).length = 2 := rfl

@[simp] theorem flagsByte_length (fs : List Bool) : (flagsByte fs).length = 1 := rfl

@[simp] theorem figureBytes_length (f : Config.Figure) (n : Nat) : (figureBytes f n).length = Config.width f := by
  simp [figureBytes]

@[simp] theorem CompSet.bytes_length (s : CompSet) : s.bytes.length = 1 := rfl

@[simp] theorem crc16Bytes_length (b : Bytes) : (crc16Bytes b).length = 2 := rfl

@[simp] theorem crc32Bytes_length (b : Bytes) : (crc32Bytes b).length = 4 := rfl

@[simp] theorem textBytes_length (t : Bytes) : (textBytes t).length = textLength t := by
  simp [textBytes, textLength, Nat.add_comm]

@[simp] theorem resultBytes_length (r : Option ArrowResult) : (resultBytes r).length = 1 := by
  cases r <;> rfl

@[simp] theorem glyphBytes_length (g : Option Glyph) : (glyphBytes g).length = 1 := by
  rcases g with _ | g
  · rfl
  · cases g <;> rfl

@[simp] theorem letterBytes_length (l : Option Nat) : (orAbsent 1 byte1 l).length = 1 := by
  cases l <;> rfl

/-- Phrase 1 in place of an arrow, as long as it is there. -/
@[simp] theorem helpBytes_length (h : Option Bytes) : (orAbsent 0 textBytes h).length = helpLength h := by
  cases h <;> simp [orAbsent, helpLength]

/-- Parts laid end to end are as long as their lengths together. -/
theorem flatMap_length {α : Type} {f : α → Bytes} {n : α → Nat} (h : ∀ a, (f a).length = n a) (l : List α) :
    (l.flatMap f).length = (l.map n).sum := by
  induction l with
  | nil => rfl
  | cons a l ih => simp [h, ih]

@[simp] theorem PageRow.bytes_length (r : PageRow) : r.bytes.length = r.length := by
  simp [PageRow.bytes, PageRow.length]
  omega

@[simp] theorem PageLine.bytes_length (l : PageLine) : l.bytes.length = l.length := by
  simp [PageLine.bytes, PageLine.length]
  omega

@[simp] theorem AlertText.bytes_length (a : AlertText) : a.bytes.length = a.length := by
  simp only [AlertText.bytes, AlertText.length, List.length_append, textBytes_length, helpBytes_length,
    flatMap_length textBytes_length]

/-- A section is as long as its rule counts it (R94). -/
@[simp] theorem PageSection.bytes_length (s : PageSection) : s.bytes.length = s.length := by
  cases s <;>
    simp [PageSection.bytes, PageSection.contents, PageSection.length, -List.length_flatMap,
      flatMap_length PageRow.bytes_length, flatMap_length PageLine.bytes_length,
      flatMap_length AlertText.bytes_length] <;> omega

/-- A page's bytes: the header of 8, then its sections. -/
theorem Page.bytes_length (g : Page) (b : Nat) : (g.bytes b).length = pageLength g.sections := by
  simp [Page.bytes, pageLength, -List.length_flatMap, flatMap_length PageSection.bytes_length]
  omega

/-- A line frame: start byte, header of 4, payload and CRC-16 (R169). -/
@[simp] theorem lineFrameBytes_length (a t : Nat) (p : Bytes) : (lineFrameBytes a t p).length = p.length + 7 := by
  simp [lineFrameBytes]
  omega

/-- A link frame: start byte, length field, kind, tag, body and CRC-16 (R169). -/
@[simp] theorem linkFrameBytes_length (kind tag : Byte) (b : Bytes) :
    (linkFrameBytes kind tag b).length = b.length + 7 := by
  simp [linkFrameBytes]
  omega

/-! ### Optional fields: one that is none is as long as one that is there (12.2) -/

/-- An optional field of a width has that width, there or not. -/
theorem orAbsent_length {α : Type} {width : Nat} {f : α → Bytes} (h : ∀ v, (f v).length = width) (x : Option α) :
    (orAbsent width f x).length = width := by
  cases x <;> simp [orAbsent, h]

@[simp] theorem JobPage.bytes_length (j : JobPage) : j.bytes.length = 4 := rfl

@[simp] theorem Notice.bytes_length (n : Notice) : n.bytes.length = 6 := by
  simp [Notice.bytes, orAbsent_length byte4_length]

@[simp] theorem PendingChange.bytes_length (c : PendingChange) : c.bytes.length = 6 := rfl

@[simp] theorem CoverageStatus.bytes_length (c : CoverageStatus) : c.bytes.length = coverageWidth := by
  simp [CoverageStatus.bytes, coverageWidth, figures]
  omega

/-- The job page and the notice of the CONTENT view, and the coverage record of STATUS, are as long when they are none as
when they are there (R150, R162). -/
theorem absent_lengths (j : Option JobPage) (n : Option Notice) (c : Option CoverageStatus) :
    (orAbsent 4 JobPage.bytes j).length = 4 ∧ (orAbsent 6 Notice.bytes n).length = 6 ∧
      (orAbsent coverageWidth CoverageStatus.bytes c).length = coverageWidth :=
  ⟨orAbsent_length JobPage.bytes_length j, orAbsent_length Notice.bytes_length n,
    orAbsent_length CoverageStatus.bytes_length c⟩

/-- A report's frame has tag 0 (R156). -/
@[simp] theorem TxFrame.report_tag (lost : Bool) (r : Report) : (TxFrame.report lost r).frame.tag = 0 := rfl

/-- A refusal's body is its code alone, when the reply's body is empty (R156). -/
@[simp] theorem Reply.frame_empty (kind tag : Byte) (c : Code) :
    (⟨kind, tag, c, .empty⟩ : Reply).frame = ⟨kind, tag, byte1 c.number⟩ := rfl

end Sys2Proof.Machine
end

