-- ==== Sys2Proof/Tests/Slice0.lean ====
section
/-! SUPPORT. Tests: the worked examples of spec/, one step at a time, and for every statement that has hypotheses a
witness that meets them. -/

namespace Sys2Proof.Tests
set_option Elab.async false

open Sys2Proof.Machine

/-! ### Small states -/

/-- What a command answers holds of a test. -/
def after (o : Host.Outcome State Fault Refusal) (f : State → Bool) : Bool :=
  match o with
  | .next t => f t
  | .fault _ => false
  | .refused _ => false

/-- The result code of the waiting reply. -/
def answered (c : Code) (t : State) : Bool := (t.link.waiting.map (·.item.code)) = some c

/-- The nodes of the worked examples 5.10. -/
def nodes : Table Node :=
  [(0, ⟨⟨.stair, 3, 12, 1400, 0, .opened⟩, .opened⟩), (1, ⟨⟨.lift, 2, 15, 1600, 0, .opened⟩, .opened⟩),
    (2, ⟨⟨.stair, 5, 9, 1900, 0, .opened⟩, .closed⟩), (12, ⟨⟨.zoneDoor, 5, 5, 1990, 120, .opened⟩, .opened⟩),
    (14, ⟨⟨.zoneDoor, 7, 7, 1990, -120, .opened⟩, .opened⟩)]

/-- A theatre on deck 7 and its move to deck 5 (5.10), the station of 1.4.1, and one beyond two zone doors. -/
def dests : Table Dest :=
  [(22, ⟨.venue, 300, .inZone 7 1880 (-60), none⟩), (23, ⟨.venue, 300, .inZone 5 1880 (-60), none⟩),
    (40, ⟨.station, 301, .inZone 5 1700 0, some 3⟩), (41, ⟨.station, 302, .portals [12, 14], some 4⟩)]

/-- The zone of 5.10, no panel declared. -/
def zone : State := { State.reset with nodes := nodes, dests := dests }

/-- The corridor screen of 5.10: panel 70. -/
def corridor : Decl :=
  { kind := .corridor, fitted := ⟨true, true, true, true, true⟩, position := some ⟨7, 1520, 40, 1, 6, 30⟩,
    station := 41, mask := 0x25, venue := none, ownNode := none, langs := [0, 3], platePhrase := 211,
    plateText := [] }

/-- A cabin door: panel 5. -/
def door : Decl :=
  { kind := .door, fitted := ⟨true, false, true, false, true⟩, position := none, station := 40, mask := 0,
    venue := none, ownNode := none, langs := [], platePhrase := 0, plateText := [] }

def screen70 : Panel := zone.newPanel corridor [22] []
def door5 : Panel := zone.newPanel door [] []

/-- The zone with the two panels, both still ABSENT. -/
def town : State := { zone with panels := [(5, door5), (70, screen70)] }

/-- A panel in a line state. -/
def inState (p : Panel) (st : LineState) : Panel := { p with line := { p.line with state := st } }

/-- A panel that is LIVE with nothing left to draw. -/
def quiet (p : Panel) : Panel :=
  { p with
    content := { p.content with dirty := .nil, shown := ⟨p.visible, none, some 0, p.visible⟩ }
    line := { p.line with state := .live } }

/-- The town with both panels in service and nothing to draw. -/
def calm : State := { town with panels := [(5, quiet door5), (70, quiet screen70)] }

/-- A line whose exchange in flight is of a frame with a panel. -/
def sending (s : State) (i : Fin 4) (f : LineFrame) (id : Nat) (orphan : Bool) : State :=
  { s with lines := s.lines.set i { s.line i with exch := some ⟨f, id, orphan, false⟩ } }

/-- The link unit with a frame taken to run. -/
def taken (s : State) (f : Frame) : Link := { s.link with running := some f }

/-! ### Well-formed commands -/

theorem test_wellFormed_body : Instr.wellFormed (.zoneSet 0 (List.replicate 1025 0)) = false ∧
    Instr.wellFormed (.zoneSet 0 (List.replicate 1024 0)) = true := by decide +kernel

theorem test_wellFormed_lineFrame : Instr.wellFormed (.pollAnswer 0 [0xC3, 0x80, 0x84, 0, 0, 0]) = false ∧
    Instr.wellFormed (.pollAnswer 0 (List.replicate 1032 0)) = false := by decide +kernel

theorem test_wellFormed_panel : Instr.wellFormed (.pollDue 256) = false ∧ Instr.wellFormed (.pollDue 255) = true := by
  decide +kernel

theorem test_wellFormed_kind : Instr.wellFormed (.unknownKind 0x33 0 []) = false ∧
    Instr.wellFormed (.unknownKind 0x34 0 []) = true := by decide +kernel

theorem test_wellFormed_linkFrame : Instr.wellFormed (.linkFrameReceived (List.replicate 1032 0)) = false ∧
    Instr.wellFormed (.linkFrameReceived (List.replicate 1031 0)) = true := by decide +kernel

theorem test_wellFormed_image : Instr.wellFormed (.checkpointComplete (List.replicate 262141 0)) = false := by
  show decide ((List.replicate 262141 (0 : Byte)).length + 4 ≤ 262144) = false
  rw [List.length_replicate]
  decide +kernel

/-! ### The two checks (R169): the nine ASCII digits -/

def digits : Bytes := [0x31, 0x32, 0x33, 0x34, 0x35, 0x36, 0x37, 0x38, 0x39]

theorem test_crc16 : crc16 digits = 0x29B1 := by decide +kernel
theorem test_crc32 : crc32 digits = 0xCBF43926 := by decide +kernel

/-- The CRC-32 of the digits as the image stores it, low byte first (R169). -/
def check : Bytes := [0x26, 0x39, 0xF4, 0xCB]

theorem test_crc_bytes : crc32Bytes digits = check ∧ crc16Bytes digits = [0xB1, 0x29] := by decide +kernel

/-! ### Start-up and the queue -/

theorem test_reset_is_start_up : exec (.startUp false false false []) State.reset = .next State.reset := rfl

theorem test_step_runs_front :
    after (step { State.reset with pending := [.advance, .linkGapTimeout] }) (fun t =>
      t.clock.u = 1000 && t.clock.r = 1 && t.pending = [.linkGapTimeout]) = true := by decide +kernel

theorem test_step_idle : after (step State.reset) (fun t => t.clock.u = 1 && t.clock.r = 0) = true := by decide +kernel

/-- No row of the table has bits, so no word spells a command. -/
theorem test_no_word_decodes : decodeTableWord 8 0x21 = none := rfl

/-! ### Zone tables (1.4.1, 1.7.2, 1.8.1) -/

/-- The declaration of 1.4.1. -/
def declare70 : Bytes :=
  [70, 0, 1, 0x17, 7, 0xF0, 0x05, 40, 0, 1, 22, 0, 0xFF, 0xFF, 40, 0x25, 0xFF, 0xFF, 2, 0, 3, 0xFF, 0xFF, 211, 0, 5,
    0x37, 0x2D, 0x46, 0x57, 0x44]

/-- 1.4.1: AGENDA is dropped, the trim is clamped, the radius defaults. -/
theorem test_panelDeclare_adjusted :
    after (exec (.panelDeclare 1 declare70) zone) (fun t =>
      t.link.waiting.map (·.item) =
        some ⟨0x82, 1, .adjusted, .declare ⟨true, true, false, false, true⟩ (some 16) (some 30)⟩ &&
      (t.panels.look 70).any fun p =>
        p.line.state = .absent && p.guide = [] && p.decl.plateText = [0x37, 0x2D, 0x46, 0x57, 0x44]) = true := by
  decide +kernel

/-- 1.7.2: letter 3 is held by destination 40. -/
theorem test_destSet_letter_held :
    after (exec (.destSet 2 [41, 1, 0x2E, 1, 0xFF, 0xFF, 0xFF, 0xFF, 0xFF, 1, 12, 0xFF, 3]) zone)
      (answered .badValue) = true := by decide +kernel

/-- 1.7.2: destination 41 is the station of panel 70. -/
theorem test_destSet_in_use :
    after (exec (.destSet 2 [41, 2, 0x2E, 1, 0xFF, 0xFF, 0xFF, 0xFF, 0xFF, 1, 12, 0xFF, 0xFF]) town)
      (answered .inUse) = true := by decide +kernel

theorem test_destDrop :
    after (exec (.destDrop 3 [41]) town) (answered .inUse) = true ∧
    after (exec (.destDrop 3 [23]) town) (fun t =>
      answered .done t && t.dests.look 23 = none && t.epoch = 1) = true := by decide +kernel

/-- R4: hysteresis 9 is taken as 8 and run time 5 as 10. -/
theorem test_zoneSet_clamps :
    after (exec (.zoneSet 4 [7, 2, 9, 5, 0, 44, 1, 8, 7, 10, 60, 0, 0, 60, 0]) zone) (fun t =>
      t.params = ⟨7, 2, 8, 10, 300, 1800, 10, 60, .sequential, 60⟩ && answered .adjusted t) = true := by
  decide +kernel

/-- R13: node 12 is a portal, and a portal is a ZONE_DOOR. -/
theorem test_nodeSet_portal_kind :
    after (exec (.nodeSet 5 [12, 0, 5, 5, 0xC6, 7, 120, 0, 0]) zone) (answered .badValue) = true := by decide +kernel

/-- 5.10.2, last row: node 2 opens, the epoch moves by 1, and it is the cheapest vertical node at MUSTER. -/
theorem test_nodeState_opens :
    after (exec (.nodeState 6 [2, 0])
        { town with panels := [(70, zone.newPanel corridor [23] [])], muster := { town.muster with level := .muster } })
      (fun t => t.epoch = 1 && (t.panels.look 70).any fun p =>
        p.guideSlots.map (fun x => (x.vertical, x.result, x.glyph)) = [(some 2, some (.arrow 6), some (.down 2))] &&
          p.content.dirty.guide.isSome) = true := by decide +kernel

/-- 1.8.1. -/
theorem test_phrases :
    let s : State := { zone with phrases := [(16, [0x50]), (136, [0x41]), (139, [0x54])] }
    s.phrase 17 3 = [0x54] ∧ s.phrase 17 5 = [0x41] ∧ s.phrase 2 3 = [0x50] ∧
      s.phrase 18 3 = [0x23, 0x30, 0x30, 0x31, 0x38] ∧ s.phrase 0 5 = [] := by decide +kernel

theorem test_phrasePut_deletes :
    after (exec (.phrasePut 7 [17, 0, 3]) { zone with phrases := [(136, [0x41]), (139, [0x54])] }) (fun t =>
      t.phrases = [(136, [0x41])] && answered .done t) = true := by decide +kernel

theorem test_guideSet_unfitted :
    after (exec (.guideSet 8 [5, 0, 1, 0, 22]) town) (answered .fitRule) = true := by decide +kernel

/-- R10: the panel is gone with its bookings. -/
theorem test_panelWithdraw :
    after (exec (.panelWithdraw 9 [5, 0]) { town with bookings := [⟨5, 203⟩, ⟨9, 203⟩] }) (fun t =>
      t.panels.map (·.1) = [70] && t.bookings = [⟨9, 203⟩] && answered .done t) = true := by decide +kernel

/-! ### The clock (2.13 to 2.15) and the programme (3.9 to 3.11) -/

/-- A clock at a reference time and an offset. -/
def clockAt (r : Nat) (o : Int) (m : Nat) (ch : Option PendingChange) : Clock := ⟨5000, r, true, o, ch, some m⟩

/-- 2.13: an hour back at night. -/
theorem test_advance_applies_change :
    after (exec .advance { zone with clock := clockAt 3600029 60 60060 (some ⟨0, 3600030⟩) }) (fun t =>
      t.clock = ⟨6000, 3600030, true, 0, none, some 60000⟩ &&
      t.link.reports.map (·.item) = [.clock .advance 3600030 60 0 (some 60000) true]) = true := by decide +kernel

/-- 2.15: minute 0 ends at R = 43,260. -/
theorem test_advance_minute :
    after (exec .advance { zone with clock := clockAt 43259 (-720) 0 none }) (fun t => t.clock.m = some 1) = true ∧
    after (exec .advance { zone with clock := clockAt 43258 (-720) 0 none }) (fun t => t.clock.m = some 0) = true := by
  decide +kernel

/-- 2.14, last row: TIME_SET 3,615,000 reaches the pending change. -/
theorem test_timeSet_reaches_change :
    after (exec (.timeSet 1 [0x18, 0x29, 0x37, 0]) { zone with
        clock := clockAt 3600000 120 60120 (some ⟨60, 3610000⟩) }) (fun t =>
      t.clock.offset = 60 && t.clock.m = some 60310 && t.clock.change = none &&
      t.link.reports.map (·.item) = [.clock .timeSet 3615000 120 60 (some 60310) true]) = true := by decide +kernel

/-- 2.15: a negative sum. -/
theorem test_timeSet_negative_sum :
    after (exec (.timeSet 1 [0x20, 0x4E, 0, 0]) { zone with clock := clockAt 0 (-720) 0 none }) (fun t =>
      t.clock.r = 20000 && t.clock.m = some 0) = true := by decide +kernel

/-- An event of 3.9 and 3.10. -/
def event (id start stop lead linger : Nat) (st : EventState) : Event :=
  ⟨id, 22, 0, start, stop, 500, lead, linger, false, false, false, st, 0⟩

/-- 3.10: the clocks go forward an hour. -/
theorem test_offsetSet_forward :
    after (exec (.offsetSet 1 [60, 0, 0, 0, 0, 0]) { zone with
        clock := clockAt 3600000 0 60000 none
        events := [event 302 59950 60040 30 0 .on, event 301 60010 60050 30 15 .soon,
          event 303 60040 60200 10 15 .listed] }) (fun t =>
      t.link.reports.map (·.item) = [.clock .offsetSet 3600000 0 60 (some 60060) true,
        .eventState .advanced 302 .on .ended 60060 .offset false 0,
        .eventState .removed 302 .ended .ended 60060 .offset false 0,
        .eventState .skipped 301 .soon .ended 60060 .offset false 0,
        .eventState .advanced 303 .listed .on 60060 .offset false 0] &&
      t.events.map (fun e => (e.id, e.state)) = [(301, .ended), (303, .on)]) = true := by decide +kernel

/-- 2.14: an offset that is no multiple of 15, and one that waits for its moment. -/
theorem test_offsetSet_pending :
    after (exec (.offsetSet 1 [121, 0, 100, 0, 0, 0]) zone) (answered .badValue) = true ∧
    after (exec (.offsetSet 1 [120, 0, 100, 0, 0, 0]) zone) (fun t => t.clock.change = some ⟨120, 100⟩ &&
      t.link.waiting.map (·.item.body) = some (.offset .pending false 0)) = true := by decide +kernel

/-- 3.9: the OFFSET notice back to 60,000 changes no event. -/
theorem test_offset_back_keeps_states :
    let s : State := { zone with
      clock := clockAt 3600030 0 60000 none
      events := [event 203 59990 60050 30 15 .ended, event 201 60030 60090 30 15 .on,
        event 202 60065 60120 30 15 .soon, event 204 60100 60160 30 15 .listed] }
    s.programmeNotice .offset = s := by decide +kernel

/-- R37, R38: an event is posted SOON at 60 minutes with lead 60, and its lead default is 30. -/
theorem test_eventPost :
    after (exec (.eventPost 1 [0x9A, 1, 22, 0, 0x9C, 0xEA, 0, 0, 0xD8, 0xEA, 0, 0, 0xF4, 1, 60, 0, 0xFF, 0xFF, 1])
        { zone with clock := clockAt 3600000 0 60000 none }) (fun t =>
      t.events = [⟨410, 22, 0, 60060, 60120, 500, 60, 15, true, false, false, .soon, 0⟩] && answered .done t) = true := by
  decide +kernel

/-- The programme of 3.11: event 410 SOON, event 411 LISTED, a booking of the first. -/
def programme : State := { town with
  clock := clockAt 3600000 0 60000 none
  events := [{ event 410 60010 60050 30 15 .soon with bookings := 1 }, event 411 60100 60160 30 15 .listed]
  bookings := [⟨5, 410⟩] }

theorem test_bookingAdd :
    after (exec (.bookingAdd 1 [5, 0, 0x9B, 1]) programme) (fun t =>
      t.bookings = [⟨5, 410⟩, ⟨5, 411⟩] && t.events.map (·.bookings) = [1, 1] && answered .done t) = true ∧
    after (exec (.bookingAdd 1 [70, 0, 0x9B, 1]) programme) (answered .notFound) = true := by decide +kernel

theorem test_bookingAdd_repeated :
    after (exec (.bookingAdd 1 [5, 0, 0x9A, 1]) programme) (fun t =>
      t.bookings = [⟨5, 410⟩] && t.events.map (·.bookings) = [1, 0] && answered .done t) = true := by decide +kernel

/-- 3.11: no event 412. -/
theorem test_bookingRemove_missing :
    after (exec (.bookingRemove 1 [5, 0, 0x9C, 1]) programme) (fun t =>
      t.bookings = [⟨5, 410⟩] && t.link.waiting.map (·.item.body) = some (.removed false)) = true := by decide +kernel

theorem test_eventCancel :
    after (exec (.eventCancel 1 [0x9B, 1]) programme) (fun t =>
      t.events.map (·.cancelled) = [false, true] && answered .done t) = true := by decide +kernel

theorem test_eventDrop :
    after (exec (.eventDrop 1 [0x9A, 1]) programme) (fun t =>
      t.events.map (·.id) = [411] && t.bookings = [] && t.link.waiting.map (·.item.body) = some (.count 1)) = true := by
  decide +kernel

/-! ### Content (4.2.1, 4.4.1, 4.5.1, 6.6) -/

/-- 4.2.1: the venue entrance at 10:00. -/
theorem test_venue_rows :
    let v : Decl := { corridor with kind := .venue, venue := some 22 }
    let s : State := { zone with
      clock := clockAt 3600000 0 61080 none
      events := [event 501 61110 61170 30 15 .soon, event 502 61200 61260 30 15 .listed,
        { event 504 61320 61380 30 15 .listed with bookingOnly := true }, event 503 61500 61560 30 15 .listed,
        event 505 61860 61920 30 15 .listed] }
    (s.rowsFor (s.chosenEvents 130 v) []).map (fun r => (r.event, r.hour, r.minute, r.mark)) =
      [(501, 10, 30, .soon), (502, 12, 0, .next), (503, 17, 0, .next)] := by decide +kernel

/-- 4.4.1, second row: the host clears the flag that the guest set. -/
theorem test_cabinSet_dnd :
    let p := quiet door5
    after (exec (.cabinSet 1 [5, 0, 0, 3, 2, 0x42, 0x52]) { calm with panels :=
        [(5, { p with content := { p.content with cabin := some ⟨some [0x42, 0x52], 3, true⟩ } })] }) (fun t =>
      t.link.reports.map (·.item) = [.guestRequest .dndOff 5 .host none 0] &&
      (t.panels.look 5).any fun q => q.content.cabin = some ⟨some [0x42, 0x52], 3, false⟩ &&
        q.content.dirty.comps = ⟨true, false, false, false, false⟩) = true := by decide +kernel

theorem test_noticeSet :
    after (exec (.noticeSet 1 [3, 0, 0, 44, 1, 0xFF, 0xFF, 0xFF, 0xFF]) calm) (fun t =>
      t.link.waiting.map (·.item.body) = some (.count 1) &&
      (t.panels.look 70).any fun q => q.content.notice = some ⟨300, none⟩ && q.content.dirty.notice.isSome) = true := by
  decide +kernel

/-- 4.5.1: the step at its due time. -/
theorem test_rotationStep :
    let p := quiet screen70
    after (exec (.rotationStep 70) { calm with
        clock := { calm.clock with u := 5000000 }
        panels := [(70, { p with content := { p.content with rotation := some ⟨0, some 5000000⟩ } })] }) (fun t =>
      (t.panels.look 70).any fun q => q.content.rotation = some ⟨1, some 5010000⟩ &&
        q.content.dirty.comps = q.visible) = true := by decide +kernel

/-- 6.6: the page is too long by its fourth row. -/
theorem test_page_length :
    let row : PageRow := ⟨List.replicate 64 0, List.replicate 64 0, 0, 0, .now, some .noRoute, none,
      some (List.replicate 62 0)⟩
    let line : PageLine := ⟨List.replicate 30 0, some .noRoute, none, some (List.replicate 62 0)⟩
    let rest : List PageSection := [.guide [line, line, line]]
    let head : List PageSection := [.plate (List.replicate 5 0) (List.replicate 40 0) [] false,
      .notice (List.replicate 64 0)]
    pageLength (head ++ .agenda [row, row, row, row] :: rest) = 1216 ∧
      pageLength (head ++ .agenda [row, row, row] :: rest) = 1018 := by decide +kernel

theorem test_redraw :
    after (exec (.redraw 1 [0, 5, 0, 1]) calm) (fun t =>
      (t.line 0).queue.map (fun e => (e.panel, e.full)) ++
        ((t.line 0).job.map fun j => (j.panel, true)).toList = [(5, true)] && answered .done t) = true := by
  decide +kernel

/-- R125, R110: with the flag clear the door is queued too; on an idle line its entry is granted within the event, and on
a busy one it waits with the full flag clear. -/
theorem test_redraw_unforced :
    after (exec (.redraw 1 [0, 5, 0, 0]) calm) (fun t =>
      (t.line 0).queue = [] && (t.line 0).job.any (·.panel = 5) &&
        (t.line 0).exch = some ⟨.select false, 5, false, false⟩ &&
        (t.panels.look 5).any fun p => p.line.state = .serving && !p.content.jobForced) = true ∧
    after (exec (.redraw 1 [0, 5, 0, 0]) (sending calm 0 (.poll 0) 5 false)) (fun t =>
      (t.line 0).queue = [⟨5, .content, false⟩] && (t.line 0).job = none) = true := by
  decide +kernel

/-! ### Routes (5.10) -/

/-- 5.10.1: without a previous arrow, with 7 held, with 6 held; and trims -12 and -13. -/
theorem test_arrow_hysteresis :
    arrowCalc 4 70 360 100 none = ⟨8, 8, 8, 70, 194, 6, none, false, 6⟩ ∧
    (arrowCalc 4 70 360 100 (some 7)).computed = 6 ∧ (arrowCalc 4 70 360 100 (some 6)).kept = true ∧
    (arrowCalc 4 52 360 100 (some 6)).computed = 6 ∧ (arrowCalc 4 51 360 100 (some 6)).computed = 7 ∧
    (arrowCalc 4 52 360 100 (some 7)).computed = 7 := by decide +kernel

/-- 5.10.2: the lift at NORMAL, the aft stair at MUSTER. -/
theorem test_route_change_of_deck :
    let r := routeCalc zone.routeEnv corridor.position none [] 23 .empty
    let m := routeCalc { zone.routeEnv with barred := true } corridor.position none [] 23 .empty
    (r.vertical, r.delta, r.result, r.glyph) = (some (1, 480), some (80, 40), .arrow 6, some (.down 2)) ∧
    (m.vertical, m.delta, m.result, m.glyph) = (some (0, 760), some (-120, 40), .arrow 2, some (.down 2)) := by
  decide +kernel

/-- 5.10.3: the nearer zone door, the lift to it, and the pin. -/
theorem test_route_out_of_zone :
    let r := routeCalc zone.routeEnv corridor.position none [⟨41, 0, none, false⟩] 41 .empty
    let m := routeCalc { zone.routeEnv with barred := true } corridor.position none [⟨41, 0, none, false⟩] 41 .empty
    (r.goal, r.vertical, r.pinApplied, r.result) = (some (.portal 12 610), some (1, 650), true, .arrow 0) ∧
    (m.vertical, m.pinApplied) = (some (0, 930), false) := by decide +kernel

/-- R123: the interleaved order of the drops. -/
theorem test_sweep_order :
    (List.range 8).map (sweepDrop .interleaved) = [0, 32, 16, 48, 8, 40, 24, 56] := by decide +kernel

/-- 8.5 and 8.6: brightness. -/
theorem test_brightness :
    let at' := fun (r : Rest) (a : Nat) (m : Mode) =>
      brightnessOf .normal m { screen70 with line := { screen70.line with rest := r, ambient := a } }
    (at' .active 6 .day, at' .rest1 6 .day, at' .rest2 6 .day, at' .rest3 6 .day, at' .active 2 .day,
      at' .rest2 0 .night) = (76, 53, 30, 0, 52, 5) := by decide +kernel

/-! ### Muster (9.9, 8.6) -/

/-- 9.9: the GENERAL assertion is taken 200 ms after it began. -/
theorem test_alarm_taken :
    let s : State := { calm with
      epoch := 44
      clock := { calm.clock with u := 10000000 }
      muster := { calm.muster with mode := .night, general := ⟨true, false, some 10000000, false⟩ } }
    after (exec (.alarmDebounceExpiry .general) s) (fun t =>
      t.muster.level = .muster && t.muster.saved = .night && t.epoch = 45 && t.muster.general = ⟨true, true, none, true⟩ &&
      t.muster.coverage = some ⟨.muster, 10000200, 10060200, 2, 0, false, false⟩ &&
      t.link.reports.map (·.item) = [.musterInput 10000 .general true false true,
        .musterLevel 10000 .normal .muster .generalInput false true .night .night 45]) = true := by decide +kernel

/-- Each line without a panel broadcasts at once (R148); line 3 is one of them. -/
theorem test_alarm_broadcasts :
    after (exec (.musterRaise 1 [1]) calm) (fun t =>
      t.muster.alertDue = ⟨none, none, some 0, some 0⟩ && t.muster.level = .drill && answered .done t) = true := by
  decide +kernel

theorem test_alarmInputChange :
    after (exec (.alarmInputChange .drill true) State.reset) (fun t =>
      t.muster.drill = ⟨true, false, some 0, false⟩) = true := by decide +kernel

/-- A level at which the GENERAL input is held. -/
def alarmed : State := { calm with
  muster := { calm.muster with level := .muster, mode := .night, saved := .night, general := ⟨true, true, none, true⟩ } }

theorem test_musterRaise_lower : after (exec (.musterRaise 1 [1]) alarmed) (answered .levelLower) = true := by
  decide +kernel

theorem test_modeSet_deferred :
    after (exec (.modeSet 1 [0]) alarmed) (fun t =>
      t.muster.mode = .night && t.muster.saved = .day && answered .deferred t) = true := by decide +kernel

theorem test_allClear_held : after (exec (.allClear 1 []) alarmed) (answered .lineHeld) = true := by decide +kernel

/-- 9.9: the all-clear restores the saved mode; with no muster page shown the level is NORMAL at once. -/
theorem test_allClear :
    after (exec (.allClear 1 []) { alarmed with
        muster := { alarmed.muster with saved := .day, general := ⟨false, false, none, true⟩ } }) (fun t =>
      t.muster.level = .normal && t.muster.mode = .day && t.muster.general.latch = false && t.epoch = 1 &&
      t.link.reports.map (·.item) = [.musterLevel 0 .muster .restoring .allClear false false .day .day 1,
        .restoreDone 0 0]) = true := by decide +kernel

/-- 9.9: at the deadline one of the live panels has not shown the banner. -/
theorem test_coverageDeadline :
    after (exec .coverageDeadline { alarmed with
        clock := { alarmed.clock with u := 10060200 }
        muster := { alarmed.muster with coverage := some ⟨.muster, 10000200, 10060200, 2, 0, false, false⟩ } }) (fun t =>
      t.link.reports.map (·.item) = [.coverageShort 10060 .muster 2 0 0 0 2 [5, 70]]) = true := by decide +kernel

/-- 9.9: line 3 broadcasts and is due again 10 s later. -/
theorem test_generalAlertDue :
    after (exec (.generalAlertDue 3) { alarmed with
        muster := { alarmed.muster with alertDue := ⟨none, none, none, some 0⟩ } }) (fun t =>
      t.muster.alertDue.l3 = some 10000 && (t.line 3).exch = some ⟨.generalAlert .muster, 127, false, false⟩) = true := by
  decide +kernel

theorem test_generalAlertSent :
    after (exec (.generalAlertSent 3) (sending alarmed 3 (.generalAlert .muster) 127 false)) (fun t =>
      (t.line 3).exch = none) = true := by decide +kernel

/-! ### The link (10.5.1) and the kit store (11.2.1) -/

/-- A STATUS frame: 12.2 and R169. -/
def statusFrame : Bytes := [0xA5, 2, 0, 0x30, 9] ++ crc16Bytes [2, 0, 0x30, 9]

theorem test_linkFrameReceived :
    after (exec (.linkFrameReceived statusFrame) State.reset) (fun t =>
      t.link.queue = [⟨0x30, 9, []⟩] && t.link.rx = .hunt) = true ∧
    after (exec (.linkFrameReceived (statusFrame.take 6 ++ [0])) State.reset) (fun t =>
      t.link.queue = [] && t.link.crcCount = 1) = true := by decide +kernel

/-- R152: a length of 1 is rejected, and its second byte 0xA5 starts a frame. -/
theorem test_linkByteReceived_rehunt :
    after (exec (.linkByteReceived 0xA5) { State.reset with link := { State.reset.link with rx := .length [0] } })
      (fun t => t.link.rx = .length []) = true := by decide +kernel

theorem test_linkGapTimeout :
    after (exec .linkGapTimeout { State.reset with link := { State.reset.link with rx := .length [2] } }) (fun t =>
      t.link.rx = .hunt && t.link.gapCount = 1) = true := by decide +kernel

theorem test_unknownKind :
    after (exec (.unknownKind 0x40 3 []) State.reset) (fun t =>
      t.link.waiting.map (·.item) = some ⟨0xC0, 3, .unknownKind, .empty⟩) = true ∧
    after (exec (.unknownKind 0x90 3 []) State.reset) (fun t =>
      t.link.waiting.map (·.item) = some ⟨0xFF, 3, .unknownKind, .empty⟩) = true := by decide +kernel

/-- 10.5.1: the EVENT_STATE report, created first, is sent before the waiting reply. -/
theorem test_linkFrameSent_order :
    after (exec .linkFrameSent { State.reset with link := { State.reset.link with
        reports := [⟨5, .restoreDone 0 0⟩], waiting := some ⟨6, ⟨0x91, 8, .done, .empty⟩⟩ } }) (fun t =>
      t.link.tx = some (.report false (.restoreDone 0 0)) && t.link.reports = [] && t.link.waiting.isSome) = true := by
  decide +kernel

/-- A checkpoint in flight with tag 3, at a stage. -/
def inFlight (stage : Stage) (image : Image) : State := { zone with
  store := ⟨image, .loaded, some ⟨zone.kit, stage⟩, false⟩
  link := { zone.link with tx := none, checkpointTag := some 3 } }

theorem test_checkpoint :
    after (exec (.checkpoint 3 []) { zone with store := ⟨.written zone.kit [7, 0, 0, 0], .loaded, none, false⟩ }) (fun t =>
      t.store = ⟨.bad, .loaded, some ⟨zone.kit, .erase⟩, false⟩ && t.link.checkpointTag = some 3 &&
      t.link.waiting = none && t.link.running = none) = true := by decide +kernel

/-- 11.2.1: NODE_SET during the flight is refused, NODE_STATE is not. -/
theorem test_checkpoint_in_flight :
    after (exec (.nodeSet 4 [4, 0, 1, 2, 0, 0, 0, 0, 0]) (inFlight .write .bad)) (fun t =>
      t.link.tx = some (.reply ⟨0x85, 4, .storeBusy, .empty⟩)) = true ∧
    after (exec (.nodeState 4 [2, 0]) (inFlight .write .bad)) (fun t =>
      t.link.tx = some (.reply ⟨0x86, 4, .done, .changed true⟩)) = true := by decide +kernel

theorem test_eraseEnd :
    after (exec (.eraseEnd true) (inFlight .erase .bad)) (fun t =>
      t.store.checkpoint.map (·.stage) = some .write && t.store.image = .erased) = true ∧
    after (exec (.eraseEnd false) (inFlight .erase .bad)) (fun t =>
      t.store.checkpoint = none && t.link.tx = some (.checkpointReply ⟨0x8A, 3, .storeFail, .empty⟩)) = true := by
  decide +kernel

theorem test_writeEnd :
    after (exec (.writeEnd true digits) (inFlight .write .bad)) (fun t =>
      t.store.image = .written zone.kit check && t.store.checkpoint.map (·.stage) = some .verify) = true := by
  decide +kernel

/-- 11.2.1: a mismatch asserts FAULT and answers STORE_FAIL, a match deasserts it and answers DONE. -/
theorem test_checkpointComplete :
    let s := inFlight .verify (.written zone.kit check)
    after (exec (.checkpointComplete []) s) (fun t => t.store.fault && t.store.image = .bad &&
      t.link.tx = some (.checkpointReply ⟨0x8A, 3, .storeFail, .empty⟩)) = true ∧
    after (exec (.checkpointComplete digits) s) (fun t => !t.store.fault && t.store.image = .written zone.kit check &&
      t.link.tx = some (.checkpointReply ⟨0x8A, 3, .done, .empty⟩)) = true := by decide +kernel

/-- R167: a valid image gives the zone back, its panels ABSENT. -/
theorem test_startUp_valid :
    after (exec (.startUp true false true digits)
        { town with store := ⟨.written town.kit check, .loaded, none, true⟩, epoch := 9 }) (fun t =>
      t.nodes = nodes.map (fun e => (e.1, { e.2 with current := .opened })) && t.epoch = 0 && !t.store.fault &&
      t.panels.map (fun e => (e.1, e.2.line.state)) = [(5, .absent), (70, .absent)] && t.link.rateHigh &&
      t.muster.general = ⟨true, false, some 0, false⟩ &&
      t.link.tx = some (.report false (.kit .loaded 2 5 4 0 none))) = true := by decide +kernel

/-- R167: after an ERASE with nothing written the image is erased; with a part written it is not. -/
theorem test_startUp_erased :
    (∀ c ∈ ([(inFlight .write .erased, []), ({ zone with store := ⟨.erased, .loaded, none, true⟩ }, digits)] :
        List (State × Bytes)), after (exec (.startUp false false false c.2) c.1) (fun t =>
      t.link.tx = some (.report false (.kit .invalid 0 0 0 0 (some .empty)))) = true) ∧
    after (exec (.startUp false false false digits) (inFlight .write .erased)) (fun t =>
      t.link.tx = some (.report false (.kit .invalid 0 0 0 0 (some .check)))) = true := by decide +kernel

/-- R168: the programme goes, the lost flag is set by the report discarded. -/
theorem test_restart :
    after (exec (.restart 1 []) { programme with link := { programme.link with reports := [⟨0, .restoreDone 0 0⟩] } })
      (fun t => t.events = [] && t.bookings = [] && t.link.reports = [] && t.link.lost && t.nodes = nodes &&
        answered .done t) = true := by decide +kernel

/-- R168: a draw decision for every panel, marked or not: a door that does not show what is visible is queued. -/
theorem test_restart_queues :
    after (exec (.restart 1 []) { (sending calm 0 (.poll 0) 5 false) with panels :=
        [(5, { quiet door5 with content := { (quiet door5).content with shown := ⟨.nil, none, some 0, .nil⟩ } })] })
      (fun t => (t.line 0).queue = [⟨5, .content, false⟩] &&
        (t.panels.look 5).any fun p => p.content.dirty = ⟨none, none, none, none, none⟩) = true := by
  decide +kernel

/-! ### The lines (7.6.1, 7.10, 8.5) -/

/-- A good answer of panel 5 on line 0: its readings follow the payload's own fields. -/
def select5 (kind held flags presence ambient : Byte) : Bytes :=
  panelFrame 5 0x81 [kind, held, flags, presence, ambient, 0]

/-- Panel 5 SERVING with a job of a partial page of PLATE. -/
def serving5 : Panel :=
  { inState (quiet door5) .serving with
    content := { (quiet door5).content with dirty := ⟨some .content, none, none, none, none⟩, jobClass := some .content }
    line := { (quiet door5).line with state := .serving, partialCount := 3, nextPoll := none } }

/-- Line 0 in the job of panel 5, an exchange of a frame in flight. -/
def jobOf (p : Panel) (f : LineFrame) : State :=
  let s : State := { calm with panels := [(5, p), (70, quiet screen70)] }
  { s with lines := s.lines.set 0 { s.line 0 with
      exch := some ⟨f, 5, false, false⟩, job := some ⟨5, true, 0, none, false⟩ } }

/-- R93: the page is partial and carries PLATE alone; PLATE leaves the DIRTY set. -/
theorem test_selectAnswer_partial :
    after (exec (.selectAnswer 0 (select5 0 1 0 0 4)) (jobOf serving5 (.select false))) (fun t =>
      (t.panels.look 5).any fun q => q.content.inFlight = ⟨true, false, false, false, false⟩ &&
        q.content.dirty = .nil && q.content.jobPage.map (·.full) = some false && q.line.ambient = 4 &&
      ((t.line 0).exch.any fun x => match x.frame with
        | .page g _ => g.carried = ⟨true, false, false, false, false⟩ && g.banner = none
        | _ => false)) = true := by decide +kernel

/-- R112: an answer of kind CORRIDOR from a DOOR. -/
theorem test_selectAnswer_wrong_kind :
    after (exec (.selectAnswer 0 (select5 1 1 0 0 4)) (jobOf serving5 (.select false))) (fun t =>
      (t.line 0).job = none && t.link.reports.map (·.item) = [.panelState 5 .fault (some .kindMismatch) (some 1) 0] &&
      (t.panels.look 5).any fun q => q.line.state = .fault) = true := by decide +kernel

/-- Panel 5 with a page on the line. -/
def drawing5 : Panel :=
  { serving5 with content := { serving5.content with
      dirty := .nil, inFlight := ⟨true, false, false, false, false⟩
      jobPage := some ⟨⟨true, false, false, false, false⟩, none, 0, false, .nil⟩ } }

/-- 7.10 steps 1 and 2: PAGE_OK is followed by COMMIT; NEED_FULL by the page made full. -/
theorem test_pageAnswer :
    let s := jobOf drawing5 (.page ⟨.nil, .nil, none, 0, false, 8, []⟩ 0)
    after (exec (.pageAnswer 0 (panelFrame 5 0x82 [0])) s) (fun t =>
      (t.line 0).exch = some ⟨.commit, 5, false, false⟩) = true ∧
    after (exec (.pageAnswer 0 (panelFrame 5 0x82 [1])) s) (fun t =>
      (t.line 0).job.map (·.needFulls) = some 1 &&
      (t.panels.look 5).any fun q => q.content.jobPage.map (·.full) = some true) = true := by decide +kernel

/-- 7.10 step 5: an ALERT entry waits, so ABORT takes the place of COMMIT. -/
theorem test_pageAnswer_abort :
    let s := jobOf drawing5 (.page ⟨.nil, .nil, none, 0, false, 8, []⟩ 0)
    after (exec (.pageAnswer 0 (panelFrame 5 0x82 [0]))
        { s with lines := s.lines.set 0 { s.line 0 with queue := [⟨9, .alert, false⟩] } }) (fun t =>
      (t.line 0).exch = some ⟨.abort, 5, false, false⟩) = true := by decide +kernel

/-- 7.10 step 2: COMMIT acknowledged, a door takes a slot, its poll due 250 ms on, its update within 8 s. -/
theorem test_commitAck :
    after (exec (.commitAck 0 (panelFrame 5 0x83 [])) (jobOf drawing5 .commit)) (fun t =>
      (t.line 0).slots = 1 && (t.line 0).job = none && (t.line 0).exch = none && (t.panels.look 5).any fun q =>
        q.line.state = .updating && q.line.nextPoll = some 250 && q.line.deadline = some 8000) = true := by
  decide +kernel

/-- 7.10 step 6: what the page carried returns to the DIRTY set with the job's class. -/
theorem test_abortAck :
    after (exec (.abortAck 0 (panelFrame 5 0x85 [])) (jobOf drawing5 .abort)) (fun t =>
      (t.panels.look 5).any fun q =>
        q.content.dirty = ⟨some .content, none, none, none, none⟩ && q.line.miss = 0) = true := by decide +kernel

/-- Panel 5 UPDATING with its page committed. -/
def updating5 : Panel :=
  { drawing5 with line := { drawing5.line with
      state := .updating, commitTime := some 0, deadline := some 8000, nextPoll := some 250 } }

/-- Line 0 polling panel 5 while it is UPDATING. -/
def polling5 : State :=
  let s : State := { calm with panels := [(5, updating5), (70, quiet screen70)] }
  { s with lines := s.lines.set 0 { s.line 0 with exch := some ⟨.poll 0, 5, false, false⟩, slots := 1 } }

/-- 6.5.7: the completion of a partial page adds what it carried to the held belief. -/
theorem test_pollAnswer_completion :
    after (exec (.pollAnswer 0 (panelFrame 5 0x84 [0, 0, 4, 0])) polling5) (fun t =>
      (t.line 0).slots = 0 && (t.panels.look 5).any fun q =>
        q.line.state = .live && q.content.shown.set = ⟨true, false, false, false, false⟩ &&
        q.content.inFlight = .nil && q.line.partialCount = 4) = true := by decide +kernel

/-- The declaration of door 5 with a fitted set: kind DOOR, no position, station 40, no venue, node, language or text. -/
def declare5 (fitted : Byte) : Bytes :=
  [5, 0, 0, fitted, 0xFF, 0, 0, 0, 0, 0, 0, 0, 0, 0, 40, 0, 0xFF, 0xFF, 0, 0xFF, 0xFF, 0xFF, 0xFF, 0, 0, 0]

/-- Panel 5 UPDATING with AGENDA on its committed page. -/
def agenda5 : State := { polling5 with panels := [(5, { updating5 with content := { updating5.content with
  jobPage := some ⟨⟨true, false, true, false, false⟩, none, 0, true, .nil⟩ } })] }

/-- R89, R97: AGENDA, taken out of the fitted set and put back while its page is in flight, leaves the shown set. -/
theorem test_completion_removed :
    let free := fun t : State => { t with link := { t.link with waiting := none } }
    let shown := fun (o : Host.Outcome State Fault Refusal) => after o fun t =>
      (t.panels.look 5).any fun q => q.content.shown.set = ⟨true, false, false, false, false⟩ && q.decl.fitted.agenda
    let poll := fun t => exec (.pollAnswer 0 (panelFrame 5 0x84 [0, 0, 4, 0])) t
    shown (poll agenda5) = false ∧
    after (exec (.panelDeclare 1 (declare5 0x11)) agenda5) (fun t1 => answered .done t1 &&
      after (exec (.panelDeclare 1 (declare5 0x15)) (free t1)) fun t2 => answered .done t2 && shown (poll (free t2))) =
        true := by decide +kernel

/-- 8.5: a poll answer at quiet time 60 s brings REST1, and the next poll 2 s later. -/
theorem test_pollAnswer_ladder :
    let p := quiet screen70
    let s : State := { calm with
      clock := { calm.clock with u := 20060000 }
      panels := [(5, quiet door5), (70, { p with line := { p.line with lastPresence := some 20000000 } })] }
    after (exec (.pollAnswer 1 (panelFrame 6 0x84 [0, 0, 6, 0])) (sending s 1 (.poll 76) 70 false)) (fun t =>
      (t.panels.look 70).any fun q => q.line.rest = .rest1 && q.line.nextPoll = some 20062000 &&
        t.brightness q = 53 && q.line.brightness = some 76) = true := by decide +kernel

/-- 7.6.1: the third miss sends a LIVE door to FAULT, its probe due 30 s on. -/
theorem test_answerTimeout :
    let p := quiet door5
    let s : State := { calm with panels := [(5, { p with line := { p.line with miss := 2 } })] }
    after (exec (.answerTimeout 0) (sending s 0 (.poll 0) 5 false)) (fun t =>
      t.link.reports.map (·.item) = [.panelState 5 .fault (some .misses) none 0] && (t.panels.look 5).any fun q =>
        q.line.state = .fault && q.line.miss = 3 && q.line.nextPoll = some 30000) = true := by decide +kernel

/-- R102: an answer of the wrong type makes the answer missing, and a good one that follows changes nothing. -/
theorem test_answer_missing :
    let s := jobOf serving5 (.select false)
    after (exec (.selectAnswer 0 (panelFrame 5 0x82 [0])) s) (fun t =>
      (t.line 0).exch = some ⟨.select false, 5, false, true⟩ &&
      after (exec (.selectAnswer 0 (select5 0 1 0 0 4)) t) fun u => u = t) = true ∧
    after (exec (.pollAnswer 0 (select5 0 1 0 0 4)) s) (fun u => u = s) = true := by decide +kernel

/-- 12.3: SELECT to drop 5, and GENERAL_ALERT at MUSTER to every panel. -/
theorem test_lineOut :
    (jobOf serving5 (.select false)).lineOut 0 = some ([0xC3, 5, 1, 0, 0] ++ crc16Bytes [5, 1, 0, 0]) ∧
    (sending alarmed 3 (.generalAlert .muster) 127 false).lineOut 3 =
      some ([0xC3, 127, 6, 1, 0, 2] ++ crc16Bytes [127, 6, 1, 0, 2]) := by decide +kernel

/-- 12.2, R156: a refusal with tag 9 carries its code alone. -/
theorem test_linkOut :
    ({ zone with link := { zone.link with tx := some (.reply ⟨0x81, 9, .badValue, .empty⟩) } } : State).linkOut =
      some ([0xA5, 3, 0, 0x81, 9, 18] ++ crc16Bytes [3, 0, 0x81, 9, 18]) := by decide +kernel

/-- 7.6.1: a good probe answer recovers the door. -/
theorem test_probeAnswer :
    let s : State := { calm with panels := [(5, inState door5 .fault)] }
    after (exec (.probeAnswer 0 (select5 0 0 1 0 4)) (sending s 0 (.select true) 5 false)) (fun t =>
      t.link.reports.map (·.item) = [.panelState 5 .recovered none none 0] && (t.line 0).job.map (·.panel) = some 5 &&
      (t.panels.look 5).any fun q => q.line.state = .serving && q.content.jobForced) = true := by decide +kernel

theorem test_pollDue :
    after (exec (.pollDue 5) town) (fun t => (t.line 0).exch = some ⟨.select true, 5, false, false⟩) = true := by decide +kernel

/-- R116, R118: the update that runs out returns its work and frees the slot. -/
theorem test_updateTimeout :
    after (exec (.updateTimeout 5) { calm with
        clock := { calm.clock with u := 8000 }
        panels := [(5, updating5)]
        lines := calm.lines.set 0 { calm.line 0 with slots := 1 } }) (fun t =>
      (t.line 0).slots = 0 && (t.panels.look 5).any fun q => q.line.miss = 1 && q.content.dirty.plate.isSome) = true := by
  decide +kernel

theorem test_heldSlotRelease :
    after (exec (.heldSlotRelease 0) { calm with
        clock := { calm.clock with u := 9000 }
        lines := calm.lines.set 0 { calm.line 0 with slots := 2, held := [8500, 8200] } }) (fun t =>
      (t.line 0).slots = 1 && (t.line 0).held = [8500]) = true := by decide +kernel

/-- R123: a door that has never drawn a full page is refreshed. -/
theorem test_sweepStep :
    after (exec (.sweepStep 0) { calm with
        lines := calm.lines.set 0 { calm.line 0 with sweepK := 40, sweepDue := some 0 } }) (fun t =>
      (t.line 0).sweepK = 41 && (t.line 0).sweepDue = some 60000 &&
      (t.line 0).job.map (·.panel) = some 5) = true := by decide +kernel

theorem test_lineReset :
    after (exec (.lineReset 1 [0]) polling5) (fun t =>
      t.line 0 = .initial && t.link.waiting.map (·.item.body) = some (.count 1) && (t.panels.look 5).any fun q =>
        q.line.state = .absent && q.line.nextPoll = some 0 && q.content.dirty.plate = some .content) = true := by
  decide +kernel

theorem test_strayPanelFrame : exec (.strayPanelFrame 0 [1]) polling5 = .next polling5 := rfl

/-! ### Queries -/

theorem test_status :
    after (exec (.status 9 []) programme) (fun t => match t.link.waiting.map (·.item.body) with
      | some (ReplyBody.status r) => r.declared = 2 && r.m = some 60000 && r.events = 2 && r.bookings = 1 && !r.checkpoint
      | _ => false) = true := by decide +kernel

/-- R162, 12.2: a job page is four bytes, PLATE and AGENDA with the DRILL banner, language 3 and the full flag here; one
that is none is 0xFF in each. -/
theorem test_jobPage_bytes :
    orAbsent 4 JobPage.bytes (some ⟨⟨true, false, true, false, false⟩, some .drill, 3, true, .nil⟩) = [5, 1, 3, 1] ∧
      orAbsent 4 JobPage.bytes none = [0xFF, 0xFF, 0xFF, 0xFF] := by decide

theorem test_panelRead :
    after (exec (.panelRead 9 [70, 0, 0]) town) (fun t =>
      t.link.waiting.map (·.item.body) = some (.panel 70 (.ident corridor 1 6 [22] []))) = true ∧
    after (exec (.panelRead 9 [71, 0, 0]) town) (answered .notFound) = true := by decide +kernel

theorem test_eventRead :
    after (exec (.eventRead 9 [1, 0x9A, 1]) programme) (fun t =>
      t.link.waiting.map (·.item.body) = some (.eventRecord (programme.event 411))) = true ∧
    after (exec (.eventRead 9 [1, 0x9B, 1]) programme) (fun t =>
      t.link.waiting.map (·.item.body) = some (.eventRecord none)) = true := by decide +kernel

/-- 5.10.2: the probe after the stair's opening keeps the slot's arrow. -/
theorem test_routeProbe :
    let s : State := { zone with
      nodes := nodes.put 2 ⟨⟨.stair, 5, 9, 1900, 0, .opened⟩, .opened⟩
      muster := { zone.muster with level := .muster } }
    after (exec (.routeProbe 9 [70, 0, 23]) { s with panels := [(70, s.newPanel corridor [23] [])] }) (fun t =>
      match t.link.waiting.map (·.item.body) with
      | some (ReplyBody.probe _ b r) => b && r.stage = .arrow && r.goal = some (.point 5 1880 (-60)) &&
        r.vertical = some (2, 560) && r.targetXY = some (1900, 0) && r.glyph = some (.down 2) &&
        r.delta = some (380, 40) && r.figures = some ⟨3, 3, 3, 70, 189, 6, some 6, true, 6⟩ && r.result = .arrow 6
      | _ => false) = true := by decide +kernel

/-- R82 in 12.2: kept and pin applied share one flags byte, in order of mention. -/
theorem test_routeProbe_flags :
    let r := fun (pins : List Pin) (old : Slot) =>
      routeCalc zone.routeEnv (some ⟨7, 1520, 40, 1, 6, 30⟩) none pins 22 old
    (r [] .empty).flags = [0] ∧ (r [⟨22, 5, none, true⟩] .empty).flags = [2] ∧
    (let old := { Slot.empty with dest := some 22, target := some (.point 7 1880 (-60)), prev := some 6 };
      (r [] old).figures.any (·.kept) = true ∧ (r [] old).flags = [1] ∧
        (r [⟨22, 5, none, true⟩] old).flags = [3]) := by decide +kernel

/-! ### Witnesses: for each statement with hypotheses, states and operands that meet them -/

/-- A test of what an option holds. -/
theorem of_all {α : Type} {o : Option α} {P : α → Prop} [DecidablePred P]
    (h : o.all (fun x => decide (P x)) = true) : ∀ x, o = some x → P x := by
  intro x hx
  subst hx
  simpa using h

/-- A link unit with parts of another. -/
def withLink (s : State) (l : Link) : State := { s with link := l }

theorem witness_StepRunsFront :
    ({ zone with pending := [.advance, .linkGapTimeout] } : State).pending = .advance :: [.linkGapTimeout] ∧
    State.reset.pending = [] := ⟨rfl, rfl⟩

def statusReq : Frame := ⟨0x30, 9, []⟩

theorem witness_RequestTurn :
    (Instr.status 9 []).frame = some statusReq ∧
    (taken zone statusReq).running.isSome = true ∧
    ({ zone.link with waiting := some ⟨0, ⟨0x81, 1, .done, .empty⟩⟩ } : Link).waiting.isSome = true ∧
    (∀ g ∈ ([statusReq, ⟨0x22, 9, []⟩] : List Frame), ∀ n ∈ [0, 5, 6, 7],
      let l : Link := { zone.link with queue := g :: List.replicate n statusReq }
      l.running = none ∧ l.waiting = none ∧ l.queue = g :: List.replicate n statusReq) ∧
    ((⟨0x22, 9, []⟩ : Frame) ≠ statusReq) ∧
    (zone.link.running = none ∧ zone.link.waiting = none ∧ zone.link.queue = []) := by decide +kernel

theorem witness_RequestChecks :
    ((Instr.zoneSet 9 []).frame = some ⟨0x01, 9, []⟩ ∧
      zone.link.take ⟨0x01, 9, []⟩ = some (taken zone ⟨0x01, 9, []⟩) ∧ lengthRule 0x01 [] = false) ∧
    ((Instr.destDrop 9 [22]).frame = some ⟨0x08, 9, [22]⟩ ∧
      (inFlight .erase .bad).link.take ⟨0x08, 9, [22]⟩ = some (taken (inFlight .erase .bad) ⟨0x08, 9, [22]⟩) ∧
      lengthRule 0x08 [22] = true ∧ (inFlight .erase .bad).store.checkpoint.isSome = true ∧
      (0x08 : Byte) ∈ ([0x01, 0x02, 0x03, 0x04, 0x05, 0x07, 0x08, 0x0A] : List Byte)) ∧
    (∀ id ∈ ([0, 255] : List Byte), (Instr.phrasePut 9 [id, 0, 0]).frame = some ⟨0x09, 9, [id, 0, 0]⟩ ∧
      (inFlight .verify .bad).link.take ⟨0x09, 9, [id, 0, 0]⟩ =
        some (taken (inFlight .verify .bad) ⟨0x09, 9, [id, 0, 0]⟩) ∧
      lengthRule 0x09 [id, 0, 0] = true ∧ u16 [id, 0, 0] 0 ≤ 255) ∧
    (∀ k ∈ ([0x00, 0x34, 0x7F, 0x80, 0xFF] : List Byte), (Instr.unknownKind k 9 []).frame = some ⟨k, 9, []⟩ ∧
      zone.link.take ⟨k, 9, []⟩ = some (taken zone ⟨k, 9, []⟩) ∧ requestKind k = false ∧ lengthRule k [] = true) := by
  decide +kernel

theorem witness_RefusedChangesNothing :
    let f : Frame := ⟨0x01, 9, []⟩
    let t := zone.replied (taken zone f) 0x81 9 .badLength .empty
    (Instr.zoneSet 9 []).frame = some f ∧ zone.link.take f = some (taken zone f) ∧
      exec (.zoneSet 9 []) zone = .next t ∧
      t.link.waiting = some ⟨1, ⟨0x81, 9, .badLength, .empty⟩⟩ ∧ Code.refuses .badLength = true :=
  ⟨rfl, rfl, rfl, rfl, rfl⟩

theorem witness_LinkReceiver :
    zone.link.rx = .hunt ∧
    ({ zone.link with rx := .length [] } : Link).rx = .length [] ∧
    (∀ lo ∈ ([0, 1, 2, 3] : List Byte), ({ zone.link with rx := .length [lo] } : Link).rx = .length [lo]) ∧
    (2 ≤ (2 : Byte).toNat + 256 * (0 : Byte).toNat ∧ (2 : Byte).toNat + 256 * (4 : Byte).toNat ≤ 1026) ∧
    (let l : Link := { zone.link with rx := .frame 2 0 [1, 2] };
      l.rx = .frame 2 0 [1, 2] ∧ ([1, 2] : Bytes).length + 1 < (2 : Byte).toNat + 256 * (0 : Byte).toNat + 2) ∧
    ({ zone.link with rx := .length [] } : Link).rx ≠ .hunt := by decide +kernel

theorem witness_LinkFrame :
    zone.link.rx = .hunt ∧ ([] : Bytes).length ≤ 1024 ∧ (List.replicate 1024 (0 : Byte)).length ≤ 1024 ∧
      ([0, 0] : Bytes).length = 2 ∧ zone.link.queue.length < 8 ∧
      ¬ ({ zone.link with queue := List.replicate 8 statusReq } : Link).queue.length < 8 := by decide +kernel

/-- A link unit with frames waiting: a report made at 3, a reply at 4, a late reply at 5, in the order of `k`. -/
def waitingLink (a b c : Nat) : Link := { zone.link with
  reports := [⟨a, .restoreDone 0 0⟩], waiting := some ⟨b, ⟨0x91, 8, .done, .empty⟩⟩
  lateReplies := [⟨c, ⟨0x8A, 7, .done, .empty⟩⟩] }

theorem witness_FrameSent :
    ({ zone.link with tx := none } : Link).tx = none ∧
    (∃ x, zone.link.tx = some x ∧ x.isReply = false) ∧
    (zone.link.reports = [] ∧ zone.link.waiting = none ∧ zone.link.lateReplies = []) ∧
    (∃ x, (waitingLink 3 4 5).tx = some x ∧ x.isReply = false) ∧
    ((waitingLink 3 4 5).reports = [⟨3, .restoreDone 0 0⟩] ∧
      (∀ w, (waitingLink 3 4 5).waiting = some w → 3 < w.stamp) ∧
      ∀ q, (waitingLink 3 4 5).lateReplies.head? = some q → 3 < q.stamp) ∧
    ((waitingLink 4 3 5).waiting = some ⟨3, ⟨0x91, 8, .done, .empty⟩⟩ ∧
      (∀ r, (waitingLink 4 3 5).reports.head? = some r → 3 < r.stamp) ∧
      ∀ q, (waitingLink 4 3 5).lateReplies.head? = some q → 3 < q.stamp) ∧
    ((waitingLink 4 5 3).lateReplies = [⟨3, ⟨0x8A, 7, .done, .empty⟩⟩] ∧
      (∀ r, (waitingLink 4 5 3).reports.head? = some r → 3 < r.stamp) ∧
      ∀ w, (waitingLink 4 5 3).waiting = some w → 3 < w.stamp) :=
  ⟨rfl, ⟨_, rfl, rfl⟩, ⟨rfl, rfl, rfl⟩, ⟨_, rfl, rfl⟩, ⟨rfl, of_all rfl, of_all rfl⟩, ⟨rfl, of_all rfl, of_all rfl⟩,
    rfl, of_all rfl, of_all rfl⟩

def clockReport (n : Nat) : Stamped Report := ⟨n, .clock .advance 0 0 0 none false⟩
def musterReport (n : Nat) : Stamped Report := ⟨n, .restoreDone 0 0⟩

theorem witness_ReportQueue :
    (List.replicate 63 (clockReport 0)).length < 64 ∧ (List.replicate 64 (clockReport 0)).length = 64 ∧
    (clockReport 0).item.isMuster = false ∧ (musterReport 0).item.isMuster = true ∧
    (let q := List.replicate 60 (musterReport 0) ++ clockReport 0 :: List.replicate 3 (clockReport 0);
      q.length = 64 ∧ (∀ y ∈ List.replicate 60 (musterReport 0), y.item.isMuster = true) ∧
        (clockReport 0).item.isMuster = false) ∧
    (let q := musterReport 0 :: List.replicate 63 (musterReport 0);
      q.length = 64 ∧ ∀ y ∈ q, y.item.isMuster = true) ∧
    (let l : Link := { zone.link with tx := none, reports := [clockReport 0, clockReport 1] };
      l.tx = none ∧ l.next = some (.report (clockReport 0) [clockReport 1])) ∧
    (let l : Link := { waitingLink 4 3 5 with tx := none };
      l.tx = none ∧ l.next = some (.waiting ⟨3, ⟨0x91, 8, .done, .empty⟩⟩)) := by decide +kernel

theorem witness_CheckpointStages :
    (zone.link.take ⟨0x0A, 3, []⟩ = some (taken zone ⟨0x0A, 3, []⟩) ∧ zone.store.checkpoint = none ∧
      zone.store.image = .erased) ∧
    (∀ i ∈ [Image.erased, .bad], (inFlight .erase i).link.checkpointTag = some 3 ∧
      (inFlight .erase i).store.checkpoint = some ⟨zone.kit, .erase⟩ ∧ (inFlight .erase i).store.image = i) ∧
    ((inFlight .write .erased).link.checkpointTag = some 3 ∧
      (inFlight .write .erased).store.checkpoint = some ⟨zone.kit, .write⟩) ∧
    (let s := inFlight .verify (.written zone.kit check);
      s.link.checkpointTag = some 3 ∧ s.store.checkpoint = some ⟨zone.kit, .verify⟩ ∧
        s.store.image = .written zone.kit check ∧ crc32Bytes digits = check ∧ crc32Bytes [] ≠ check) :=
  ⟨⟨rfl, rfl, rfl⟩, fun _ _ => ⟨rfl, rfl, rfl⟩, ⟨rfl, rfl⟩, rfl, rfl, rfl, by decide +kernel, by decide +kernel⟩

theorem witness_StartUp :
    (zone.store.checkpoint = none ∧ ∀ k crc, zone.store.image = .written k crc → crc32Bytes [] ≠ crc) ∧
    (inFlight .write .erased).store.checkpoint.map (·.stage) = some .write ∧
    (let s : State := { town with store := ⟨.written town.kit check, .loaded, none, false⟩ };
      (∀ k crc, s.store.image = .written k crc → crc32Bytes [] ≠ crc) ∧
        s.store.checkpoint.map (·.stage) ≠ some .write ∧
        s.store.image = .written town.kit (crc32Bytes digits)) := by
  refine ⟨⟨rfl, fun k crc h => (nomatch h)⟩, rfl, fun k crc h => ?_, nofun, by decide +kernel⟩
  injection h with _ hc
  subst hc
  decide +kernel

theorem witness_RestartTaken :
    programme.link.take ⟨0x2A, 1, []⟩ = some (taken programme ⟨0x2A, 1, []⟩) := rfl

theorem witness_ZoneSet :
    let body : Bytes := [7, 2, 9, 5, 0, 44, 1, 8, 7, 10, 60, 0, 0, 60, 0]
    zone.link.take ⟨0x01, 4, body⟩ = some (taken zone ⟨0x01, 4, body⟩) ∧ body.length = 15 ∧
      zone.store.checkpoint = none := ⟨rfl, rfl, rfl⟩

/-- A declaration of panel 255 as a DOOR of station 40, 8 characters of text. -/
def declare255 : Bytes :=
  [255, 0, 0, 0x11, 0xFF, 0, 0, 0, 0, 0, 0, 0, 0, 0, 40, 0, 0xFF, 0xFF, 0, 0xFF, 0xFF, 0xFF, 0xFF, 0, 0, 8, 0x31,
    0x31, 0x31, 0x31, 0x31, 0x31, 0x31, 0x31]

/-- The first of a list's checks that fails, at a position. -/
theorem refusedBy_at {checks : List (Prop × Code)} (n : Nat) {x : Prop × Code} (h : checks[n]? = some x) (hx : x.1)
    (hb : ∀ y ∈ checks.take n, ¬ y.1) : refusedBy checks x.2 := by
  obtain ⟨hn, he⟩ := List.getElem?_eq_some_iff.mp h
  exact ⟨checks.take n, x, checks.drop (n + 1), by simp [← he], hx, rfl, hb⟩

/-- A list whose first check fails gives its code. -/
theorem refusedBy_head {x : Prop × Code} {rest : List (Prop × Code)} (hx : x.1) : refusedBy (x :: rest) x.2 :=
  ⟨[], x, rest, rfl, hx, rfl, by simp⟩

/-- Requests that fail the first check of R7, R11, R14, R36 and R56, and meet what stands before it. -/
theorem witness_refusals :
    (let b := declare70.set 1 1;
      zone.link.take ⟨0x02, 1, b⟩ = some (taken zone ⟨0x02, 1, b⟩) ∧ b.length = 26 + u8 b 25 ∧ u8 b 25 ≤ 8 ∧
        zone.store.checkpoint = none ∧ 255 < u16 b 0) ∧
    (let b : Bytes := [0, 1, 0, 0];
      calm.link.take ⟨0x04, 1, b⟩ = some (taken calm ⟨0x04, 1, b⟩) ∧ b.length = 4 + u8 b 2 + 4 * u8 b 3 ∧
        u8 b 2 ≤ 3 ∧ u8 b 3 ≤ 4 ∧ calm.store.checkpoint = none ∧ 255 < u16 b 0) ∧
    (let b : Bytes := [128, 0, 1, 0, 7, 0, 0, 0, 0, 0, 0xFF, 0xFF, 0xFF];
      town.link.take ⟨0x07, 1, b⟩ = some (taken town ⟨0x07, 1, b⟩) ∧ b.length = 13 ∧ 127 < u8 b 0) ∧
    (let b : Bytes := List.replicate 19 0;
      town.link.take ⟨0x12, 1, b⟩ = some (taken town ⟨0x12, 1, b⟩) ∧ b.length = 19 ∧ u16 b 0 = 0) ∧
    (let b : Bytes := [4, 0, 0, 0, 0, 0, 0, 0, 0];
      town.link.take ⟨0x18, 1, b⟩ = some (taken town ⟨0x18, 1, b⟩) ∧ b.length = 9 ∧ 3 < u8 b 0) := by decide +kernel

theorem witness_refusedBy : refusedBy [(False, .badValue), (True, .notFound), (True, .badValue)] .notFound :=
  refusedBy_at (checks := [(False, .badValue), (True, .notFound), (True, .badValue)]) 1 rfl trivial (by simp)

/-- The checks of R7, each answered in its order: codes of bodies that fail one and pass those before it. -/
theorem test_panelDeclare_refusals :
    let with' := fun (i : Nat) (v : Byte) (b : Bytes) => b.set i v
    let code := fun (b : Bytes) (c : Code) => after (exec (.panelDeclare 1 b) zone) (answered c)
    (code (with' 1 1 declare70) .badValue && code (with' 2 4 declare70) .badValue && code (with' 4 25 declare70) .badValue &&
      code (with' 14 42 declare70) .notFound && code (with' 14 22 declare70) .badValue &&
      code (with' 19 3 declare70) .badValue && code (with' 16 22 declare70) .badValue &&
      code (with' 2 3 (with' 16 130 declare70)) .notFound && code (with' 2 3 (with' 16 40 declare70)) .badValue &&
      code (with' 17 0 declare70) .badValue && code (with' 2 2 (with' 17 31 declare70)) .notFound &&
      code (with' 2 2 (with' 17 12 declare70)) .badValue && code (with' 26 0x7F declare70) .badValue &&
      code (with' 3 0x16 declare70) .fitRule) = true := by decide +kernel

/-- The checks of R14, R36 and R56 in their orders. -/
theorem test_refusals :
    let dest := fun (b : Bytes) (c : Code) => after (exec (.destSet 1 b) town) (answered c)
    let post := fun (b : Bytes) (c : Code) => after (exec (.eventPost 1 b)
      { zone with clock := clockAt 3600000 0 60000 none, events := [event 302 59000 59900 30 15 .ended] }) (answered c)
    let note := fun (b : Bytes) (c : Code) => after (exec (.noticeSet 1 b) town) (answered c)
    (dest [128, 0, 1, 0, 7, 0, 0, 0, 0, 0, 0xFF, 0xFF, 0xFF] .badValue &&
      dest [50, 0, 1, 0, 7, 0, 0, 0, 0, 1, 12, 0xFF, 0xFF] .badValue &&
      dest [50, 0, 1, 0, 25, 0, 0, 0, 0, 0, 0xFF, 0xFF, 0xFF] .badValue &&
      dest [50, 0, 1, 0, 0xFF, 0xFF, 0xFF, 0xFF, 0x7F, 2, 12, 12, 0xFF] .badValue &&
      dest [50, 0, 1, 0, 0xFF, 0xFF, 0xFF, 0xFF, 0x7F, 1, 30, 0xFF, 0xFF] .notFound &&
      dest [50, 0, 1, 0, 0xFF, 0xFF, 0xFF, 0xFF, 0x7F, 1, 12, 0xFF, 0xFF] .done) = true ∧
    (post [0, 0, 90, 9, 0, 0, 0, 0, 0, 0, 0, 0, 0, 0, 0, 0, 0, 0, 0] .badValue &&
      post [1, 0, 90, 9, 0, 0, 0, 0, 0, 0, 0, 0, 0, 0, 0, 0, 0, 0, 0] .notFound &&
      post [1, 0, 40, 9, 0, 0, 0, 0, 0, 0, 0, 0, 0, 0, 0, 0, 0, 0, 0] .badValue &&
      post [0x2E, 1, 22, 0, 0, 0, 0, 0, 1, 0, 0, 0, 1, 0, 0, 0, 0, 0, 0] .eventClosed &&
      post [1, 0, 22, 0, 0, 0, 0, 0, 1, 0, 0, 0, 1, 0, 0, 0, 0, 0, 0] .eventClosed) = true ∧
    (note [4, 0, 0, 0, 0, 0, 0, 0, 0] .badValue && note [0, 0, 1, 0, 0, 0, 0, 0, 0] .badValue &&
      note [0, 71, 0, 0xFF, 0xFF, 0, 0, 0, 0] .notFound && note [0, 5, 0, 0xFF, 0xFF, 0, 0, 0, 0] .fitRule &&
      note [2, 25, 0, 0, 0, 0, 0, 0, 0] .badValue && note [3, 0, 0, 0, 16, 0, 0, 0, 0] .badValue &&
      note [3, 0, 0, 0, 0, 0xFE, 0xFF, 0xFF, 0xFF] .badValue) = true := by decide +kernel

theorem witness_PanelDeclareNew :
    (let f : Frame := ⟨0x02, 1, declare70⟩;
      zone.link.take f = some (taken zone f) ∧ declare70.length = 26 + u8 declare70 25 ∧ u8 declare70 25 ≤ 8 ∧
      zone.store.checkpoint = none ∧ u16 declare70 0 ≤ 255 ∧ panelKindOf (u8 declare70 2) = some .corridor ∧
      firstRefusal (zone.declareChecks declare70 .corridor) = none ∧ zone.panels.look (u16 declare70 0) = none) ∧
    (let f : Frame := ⟨0x02, 1, declare255⟩;
      zone.link.take f = some (taken zone f) ∧ declare255.length = 26 + u8 declare255 25 ∧ u8 declare255 25 ≤ 8 ∧
      u16 declare255 0 ≤ 255 ∧ panelKindOf (u8 declare255 2) = some .door ∧
      firstRefusal (zone.declareChecks declare255 .door) = none ∧ zone.panels.look (u16 declare255 0) = none) := by
  decide +kernel

theorem witness_PanelDeclareAgain :
    (let f : Frame := ⟨0x02, 1, declare70⟩;
      calm.link.take f = some (taken calm f) ∧ declare70.length = 26 + u8 declare70 25 ∧ u8 declare70 25 ≤ 8 ∧
      calm.store.checkpoint = none ∧ u16 declare70 0 ≤ 255 ∧ panelKindOf (u8 declare70 2) = some .corridor ∧
      firstRefusal (calm.declareChecks declare70 .corridor) = none ∧
      calm.panels.look (u16 declare70 0) = some (quiet screen70) ∧ (quiet screen70).decl.kind = .corridor) ∧
    (let b : Bytes := 5 :: declare70.drop 1;
      calm.link.take ⟨0x02, 1, b⟩ = some (taken calm ⟨0x02, 1, b⟩) ∧ b.length = 26 + u8 b 25 ∧ u8 b 25 ≤ 8 ∧
      panelKindOf (u8 b 2) = some .corridor ∧ firstRefusal (calm.declareChecks b .corridor) = none ∧
      calm.panels.look (u16 b 0) = some (quiet door5) ∧ (quiet door5).decl.kind ≠ .corridor ∧
      calm.panels.sorted = true) := by
  decide +kernel

theorem witness_PanelWithdraw :
    (let f : Frame := ⟨0x03, 1, [5, 0]⟩;
      polling5.link.take f = some (taken polling5 f) ∧ ([5, 0] : Bytes).length = 2 ∧ polling5.store.checkpoint = none ∧
      u16 [5, 0] 0 ≤ 255 ∧ polling5.panels.sorted = true ∧ polling5.panels.look (u16 [5, 0] 0) = some updating5) ∧
    (∀ b ∈ ([[0, 1], [6, 0], [255, 0]] : List Bytes),
      polling5.link.take ⟨0x03, 1, b⟩ = some (taken polling5 ⟨0x03, 1, b⟩) ∧ b.length = 2) ∧
    255 < u16 [0, 1] 0 ∧ polling5.panels.look (u16 [6, 0] 0) = none ∧ u16 [255, 0] 0 ≤ 255 ∧
    polling5.panels.look (u16 [255, 0] 0) = none := by
  decide +kernel

/-- R10: an id above 255 is BAD_VALUE, one without a declaration NOT_FOUND. -/
theorem test_panelWithdraw_refusals :
    after (exec (.panelWithdraw 1 [0, 1]) polling5) (answered .badValue) = true ∧
    after (exec (.panelWithdraw 1 [6, 0]) polling5) (answered .notFound) = true := by decide +kernel

/-- Three guide destinations and four pins for panel 70. -/
def guide70 : Bytes :=
  [70, 0, 3, 4, 22, 41, 40, 22, 7, 0xFF, 1, 23, 0, 2, 0, 40, 1, 0xFF, 0, 41, 2, 12, 0]

/-- R64, R68, R88: a pin changes the arrow of the row kept (ROUTE) and a row is created (CONTENT): the higher class. -/
theorem test_guideSet_two_causes :
    after (exec (.guideSet 1 [70, 0, 2, 1, 22, 23, 22, 5, 0xFF, 0]) { calm with
        dests := [(22, ⟨.venue, 300, .inZone 7 1880 (-60), none⟩), (23, ⟨.venue, 301, .inZone 7 1880 (-60), none⟩)] })
      (fun t => (t.panels.look 70).any fun q => q.guideSlots.map (·.dest) = [some 22, some 23] &&
        (q.guideSlots.head?.bind (·.result)) = some (.arrow 5) && q.content.dirty.guide = some DrawClass.route) = true := by
  decide +kernel

theorem witness_GuideSet :
    (let f : Frame := ⟨0x04, 1, guide70⟩;
      calm.link.take f = some (taken calm f) ∧ guide70.length = 4 + u8 guide70 2 + 4 * u8 guide70 3 ∧
      u8 guide70 2 ≤ 3 ∧ u8 guide70 3 ≤ 4 ∧ calm.store.checkpoint = none ∧ u16 guide70 0 ≤ 255 ∧
      calm.panels.look (u16 guide70 0) = some (quiet screen70) ∧
      firstRefusal (calm.guideChecks guide70 (quiet screen70)) = none) ∧
    (let b : Bytes := [70, 0, 0, 0];
      b.length = 4 + u8 b 2 + 4 * u8 b 3 ∧ firstRefusal (calm.guideChecks b (quiet screen70)) = none) := by
  decide +kernel

theorem witness_NodeState :
    (∀ b ∈ ([[32, 0], [31, 0], [2, 2], [2, 0], [2, 1]] : List Bytes),
      town.link.take ⟨0x06, 1, b⟩ = some (taken town ⟨0x06, 1, b⟩) ∧ b.length = 2) ∧
    31 < u8 [32, 0] 0 ∧ town.nodes.look (u8 [31, 0] 0) = none ∧
    (∃ n, town.nodes.look 2 = some n ∧ 1 < u8 [2, 2] 1 ∧ n.current = .closed ∧ n.current ≠ .opened) :=
  ⟨by decide +kernel, by decide, by decide +kernel, _, rfl, by decide, rfl, by decide⟩

theorem witness_NodeSet :
    (∀ b ∈ ([[31, 2, 24, 24, 0xFF, 0x0F, 0x90, 1, 1], [32, 2, 1, 1, 0, 0, 0, 0, 0], [12, 0, 5, 5, 0, 0, 0, 0, 0]] :
        List Bytes), town.link.take ⟨0x05, 1, b⟩ = some (taken town ⟨0x05, 1, b⟩) ∧ b.length = 9) ∧
    town.store.checkpoint = none ∧
    (let b : Bytes := [31, 2, 24, 24, 0xFF, 0x0F, 0x90, 1, 1];
      (u8 b 0 ≤ 31 ∧ u8 b 1 ≤ 2 ∧ 1 ≤ u8 b 2 ∧ u8 b 2 ≤ u8 b 3 ∧ u8 b 3 ≤ 24 ∧ (u8 b 1 = 2 → u8 b 2 = u8 b 3) ∧
        u16 b 4 ≤ 4095 ∧ -400 ≤ s16 b 6 ∧ s16 b 6 ≤ 400 ∧ u8 b 8 ≤ 1) ∧ ¬ (town.nodes.look 31).isSome) ∧
    ¬ u8 [32, 2, 1, 1, 0, 0, 0, 0, 0] 0 ≤ 31 ∧
    ((town.nodes.look 12).isSome ∧ ∃ e ∈ town.dests, e.2.hasPortal 12 = true) := by decide +kernel

theorem witness_DestSlots :
    (let b : Bytes := [127, 1, 0xFF, 0x0F, 24, 0xFF, 0x0F, 0x90, 1, 0, 0xFF, 0xFF, 15];
      town.link.take ⟨0x07, 1, b⟩ = some (taken town ⟨0x07, 1, b⟩) ∧ b.length = 13 ∧ town.store.checkpoint = none ∧
      destKindOf (u8 b 1) = some .station ∧ u8 b 0 ≤ 127 ∧ 1 ≤ u16 b 2 ∧ u16 b 2 ≤ 4095 ∧
      firstRefusal (town.destChecks b .station) = none) ∧
    (let b : Bytes := [127, 0, 1, 0, 0xFF, 0, 0, 0, 0, 2, 12, 14, 0xFF];
      b.length = 13 ∧ destKindOf (u8 b 1) = some .venue ∧ firstRefusal (town.destChecks b .venue) = none) ∧
    (∀ i ∈ ([128, 127, 41, 23] : List Byte), town.link.take ⟨0x08, 1, [i]⟩ = some (taken town ⟨0x08, 1, [i]⟩)) ∧
    127 < u8 [128] 0 ∧ town.dests.look 127 = none ∧
    (let used := fun i : Nat => (∃ e ∈ town.panels, e.2.decl.station = i ∨ e.2.decl.venue = some i ∨ i ∈ e.2.guide ∨
        ∃ x ∈ e.2.pins, x.dest = i) ∨ ∃ e ∈ town.events, e.venue = i;
      (town.dests.look 41).isSome ∧ used 41 ∧ (town.dests.look 23).isSome ∧ ¬ used 23) := by decide +kernel

theorem witness_PhrasePut :
    (let b : Bytes := [17, 0, 3];
      zone.link.take ⟨0x09, 1, b⟩ = some (taken zone ⟨0x09, 1, b⟩) ∧ 3 ≤ b.length ∧ zone.store.checkpoint = none) ∧
    (let b : Bytes := [0, 1, 3, 0x41];
      let s := inFlight .erase .bad;
      s.link.take ⟨0x09, 1, b⟩ = some (taken s ⟨0x09, 1, b⟩) ∧ 3 ≤ b.length ∧ 256 ≤ u16 b 0) := by decide +kernel

theorem witness_PhraseText :
    door5.content.cabin = some ⟨none, 0, false⟩ ∧
    (screen70.content.cabin = none ∧ screen70.content.rotation = some ⟨0, some 10000⟩) ∧
    (let s : State := { zone with phrases := [(136, [0x41]), (139, [0x54])] };
      s.phrases.look (8 * 17 + 3) = some [0x54] ∧ s.phrases.look (8 * 17 + 7) = none ∧
      s.phrases.look (8 * 17 + s.params.primaryLang) = some [0x41] ∧ s.phrases.look (8 * 4095 + 7) = none ∧
      s.phrases.look (8 * 4095 + s.params.primaryLang) = none) := by decide +kernel

theorem witness_TimeSet :
    zone.link.take ⟨0x10, 1, [0x18, 0x29, 0x37, 0]⟩ = some (taken zone ⟨0x10, 1, [0x18, 0x29, 0x37, 0]⟩) ∧
      ([0x18, 0x29, 0x37, 0] : Bytes).length = 4 := ⟨rfl, rfl⟩

theorem witness_OffsetSet :
    (∀ b ∈ ([[0x57, 3, 0, 0, 0, 0], [0x48, 3, 0, 0, 0, 0], [0x30, 0xFD, 1, 0, 0, 0]] : List Bytes),
      zone.link.take ⟨0x11, 1, b⟩ = some (taken zone ⟨0x11, 1, b⟩) ∧ b.length = 6) ∧
    (let lawful := fun o : Int => o % 15 = 0 ∧ -720 ≤ o ∧ o ≤ 840;
      ¬ lawful (s16 [0x57, 3, 0, 0, 0, 0] 0) ∧
      (lawful (s16 [0x48, 3, 0, 0, 0, 0] 0) ∧ u32 [0x48, 3, 0, 0, 0, 0] 2 ≤ zone.clock.r) ∧
      lawful (s16 [0x30, 0xFD, 1, 0, 0, 0] 0) ∧ zone.clock.r < u32 [0x30, 0xFD, 1, 0, 0, 0] 2) := by decide +kernel

theorem witness_Advance :
    (let c := zone.clock;
      c.change.filter (fun x => c.r + 1 = x.effective) = none ∧ c.set = false) ∧
    (let c := clockAt 3600000 60 60060 none;
      c.set = true ∧ some (((((c.r + 1 : Nat) : Int) + 60 * c.offset) / 60).toNat) = c.m) ∧
    (let c := clockAt 43259 (-720) 0 none;
      c.set = true ∧ some (((((c.r + 1 : Nat) : Int) + 60 * c.offset) / 60).toNat) ≠ c.m) ∧
    (let c := clockAt 3600029 60 60060 (some ⟨0, 3600030⟩);
      (c.change.filter fun x => c.r + 1 = x.effective).isSome = true) := by decide +kernel

theorem witness_ProgrammeNotice :
    (programme.events.map (·.id)).Nodup ∧ programme.clock.m = some 60000 ∧ zone.clock.m = none ∧
      (zone.events.map (·.id)).Nodup := by decide +kernel

/-- A new event at the ends of every range: S 71,579,308, E 71,583,628, category 7, title 4095. -/
def post411 : Bytes :=
  [0x9B, 1, 22, 7, 0xAC, 0x36, 0x44, 4, 0x8C, 0x47, 0x44, 4, 0xFF, 0x0F, 0xFF, 0xFF, 0xF1, 0, 3]

theorem witness_EventPost :
    programme.link.take ⟨0x12, 1, post411⟩ = some (taken programme ⟨0x12, 1, post411⟩) ∧ post411.length = 19 ∧
    (u16 post411 0 ≠ 0 ∧ u8 post411 2 ≤ 127 ∧
      programme.dests.look (u8 post411 2) = some ⟨.venue, 300, .inZone 7 1880 (-60), none⟩ ∧ u8 post411 3 ≤ 7 ∧
      u32 post411 8 ≤ 71583628 ∧ u32 post411 4 < u32 post411 8 ∧ u32 post411 8 - u32 post411 4 ≤ 4320 ∧
      1 ≤ u16 post411 12 ∧ u16 post411 12 ≤ 4095) ∧
    (∀ e, programme.event (u16 post411 0) = some e → e.state ≠ .ended) ∧
    (∀ m, programme.clock.m = some m → m < u32 post411 8) ∧
    (programme.event (u16 post411 0) = none → programme.events.length < 256) :=
  ⟨rfl, rfl, by decide +kernel, of_all (by decide +kernel), of_all (by decide +kernel), fun _ => by decide +kernel⟩

theorem witness_EventCancelDrop :
    (∀ b ∈ ([[0x9A, 1], [0x9C, 1]] : List Bytes), b.length = 2 ∧
      programme.link.take ⟨0x13, 1, b⟩ = some (taken programme ⟨0x13, 1, b⟩) ∧
      programme.link.take ⟨0x14, 1, b⟩ = some (taken programme ⟨0x14, 1, b⟩)) ∧
    programme.event (u16 [0x9C, 1] 0) = none ∧ (programme.event (u16 [0x9A, 1] 0)).isSome = true ∧
    (let e := event 410 60010 60050 30 15 .soon;
      ∀ x ∈ [{ e with state := .ended }, { e with cancelled := true }, e],
        ({ programme with events := [x] } : State).event (u16 [0x9A, 1] 0) = some x) := by decide +kernel

/-- The programme with the 16 pairs that a panel may hold. -/
def sixteen : State := { programme with bookings := (List.range 16).map fun i => ⟨5, 600 + i⟩ }

theorem witness_BookingPairs :
    (∀ b ∈ ([[0, 1, 0x9A, 1], [5, 0, 0x9C, 1], [70, 0, 0x9A, 1], [5, 0, 0x9A, 1], [5, 0, 0x9B, 1]] : List Bytes),
      b.length = 4 ∧ programme.link.take ⟨0x15, 1, b⟩ = some (taken programme ⟨0x15, 1, b⟩) ∧
      programme.link.take ⟨0x16, 1, b⟩ = some (taken programme ⟨0x16, 1, b⟩)) ∧
    255 < u16 [0, 1, 0x9A, 1] 0 ∧ programme.event 412 = none ∧
    ((programme.panels.look 70).map (·.decl.kind) = some .corridor) ∧
    (programme.panels.look 5 = some door5 ∧ door5.decl.kind = .door) ∧
    (programme.event 410).map (·.state) = some .soon ∧
    (let s : State := { programme with events := [event 410 59900 59990 30 60 .ended] };
      (s.event 410).map (·.state) = some .ended) ∧
    (⟨5, 410⟩ : Booking) ∈ programme.bookings ∧ (⟨5, 411⟩ : Booking) ∉ programme.bookings ∧
    ¬ (16 ≤ (programme.bookings.filter fun b => b.panel = 5).length ∨ 1024 ≤ programme.bookings.length) ∧
    ((⟨5, 411⟩ : Booking) ∉ sixteen.bookings ∧ 16 ≤ (sixteen.bookings.filter fun b => b.panel = 5).length) ∧
    programme.bookings.Nodup := by decide +kernel

theorem witness_CabinSet :
    (∀ b ∈ ([[0, 1, 1, 0, 0], [70, 0, 1, 0, 0], [5, 0, 1, 9, 1, 0], [5, 0, 0, 7, 2, 0x20, 0x7E], [5, 0, 0, 8, 0],
        [5, 0, 0, 0, 1, 0x7F]] : List Bytes),
      calm.link.take ⟨0x17, 1, b⟩ = some (taken calm ⟨0x17, 1, b⟩) ∧ b.length = 5 + u8 b 4) ∧
    255 < u16 [0, 1, 1, 0, 0] 0 ∧ (∀ p, calm.panels.look 70 = some p → p.decl.kind ≠ .door) ∧
    (calm.panels.look 5 = some (quiet door5) ∧ (quiet door5).decl.kind = .door ∧
      (quiet door5).content.cabin = some ⟨none, 0, false⟩) ∧
    (let good := fun b : Bytes => (b.getD 2 0).getLsbD 0 = true ∨ u8 b 4 ≤ 24 ∧ u8 b 3 ≤ 7 ∧
        ∀ c ∈ b.drop 5, 0x20 ≤ c.toNat ∧ c.toNat ≤ 0x7E;
      good [5, 0, 1, 9, 1, 0] ∧ good [5, 0, 0, 7, 2, 0x20, 0x7E] ∧ ¬ good [5, 0, 0, 8, 0] ∧
        ¬ good [5, 0, 0, 0, 1, 0x7F]) :=
  ⟨by decide +kernel, by decide, of_all (by decide +kernel), by decide +kernel, by decide +kernel⟩

theorem witness_NoticeSet :
    (∀ b ∈ ([[0, 70, 0, 0xFF, 0x0F, 0xFF, 0xFF, 0xFF, 0xFF], [1, 3, 0, 0, 0, 0x8C, 0x47, 0x44, 4],
        [2, 24, 0, 1, 0, 0, 0, 0, 0], [3, 0xFF, 0xFF, 1, 0, 0, 0, 0, 0]] : List Bytes),
      calm.link.take ⟨0x18, 1, b⟩ = some (taken calm ⟨0x18, 1, b⟩) ∧ b.length = 9 ∧ u8 b 0 ≤ 3 ∧
      (u8 b 0 = 1 → u16 b 1 ≤ 3) ∧ (u8 b 0 = 2 → 1 ≤ u16 b 1 ∧ u16 b 1 ≤ 24) ∧ u16 b 3 ≤ 4095 ∧
      (u32 b 5 = 4294967295 ∨ u32 b 5 ≤ 71583628)) ∧
    (u16 [0, 70, 0, 0xFF, 0x0F, 0xFF, 0xFF, 0xFF, 0xFF] 1 = 70 ∧ calm.panels.look 70 = some (quiet screen70) ∧
      (quiet screen70).decl.fitted.notice = true) := by decide +kernel

/-- The in-use set of R85 where the last part of the frame asks for it, and a first record's marks (R100). -/
theorem witness_NoticeSet_inUse : (quiet screen70).inUseOk calm.muster.level calm.clock.set ∧ screen70.firstDirty := by
  refine ⟨rfl, fun c => ?_⟩
  cases c <;> rfl

/-- R89: NOTICE, marked, leaves the DIRTY set when it leaves the fitted set. -/
theorem test_redeclare_leaves_dirty :
    let body := fun f : Byte => declare70.set 3 f
    let notice := fun t : State => (t.panels.look 70).bind (·.content.dirty.notice)
    let free := fun t : State => { t with link := { t.link with waiting := none } }
    after (exec (.noticeSet 1 [3, 0, 0, 44, 1, 0xFF, 0xFF, 0xFF, 0xFF]) (sending calm 1 (.poll 0) 70 false)) (fun t1 =>
      (notice t1).isSome && after (exec (.panelDeclare 1 (body 0x1D)) (free t1)) fun t2 =>
        notice t2 = none && (t2.panels.look 70).any (!·.decl.fitted.notice)) = true := by decide +kernel

theorem witness_Redraw :
    (∀ b ∈ ([[2, 5, 0, 0], [0, 0, 1, 0], [0, 255, 0, 1], [0, 5, 0, 1], [1, 0xFF, 0xFF, 1]] : List Bytes),
      calm.link.take ⟨0x29, 1, b⟩ = some (taken calm ⟨0x29, 1, b⟩) ∧ b.length = 4) ∧
    calm.panels.sorted = true ∧ 255 < u16 [0, 0, 1, 0] 1 ∧ calm.panels.look 255 = none ∧
    ((calm.panels.look 5).isSome = true ∧ (quiet door5).line.state.queueable = true ∧
      (quiet door5).visible ≠ .nil) := by decide +kernel

/-- Screen 70 with its next step due at once. -/
def turning70 : Panel :=
  { quiet screen70 with content := { (quiet screen70).content with rotation := some ⟨1, some 0⟩ } }

theorem witness_RotationStep :
    (let s : State := { calm with panels := [(70, turning70)] };
      s.panels.look 70 = some turning70 ∧ turning70.content.rotation = some ⟨1, some 0⟩ ∧ 0 ≤ s.clock.u ∧
        s.muster.level = .normal ∧ turning70.visible ≠ .nil ∧ turning70.line.state.queueable = true) ∧
    (let s : State := { alarmed with panels := [(70, turning70)] };
      s.panels.look 70 = some turning70 ∧ s.muster.level = .muster) ∧
    turning70.decl.langs.getD 1 0 ≠ turning70.decl.langs.getD 0 0 := by decide +kernel

theorem witness_ArrowArithmetic :
    (∀ d ∈ ([(360, 100), (-1, 0), (0, -1), (-5, -5), (5, -7), (0, 1)] : List (Int × Int)),
      d.1.natAbs + d.2.natAbs ≠ 0) ∧ 255 ≤ 255 ∧ (∀ p, (some 7 : Option Nat) = some p → p ≤ 7) :=
  ⟨by decide, by decide, of_all rfl⟩

theorem witness_RouteLaw :
    zone.nodes.sorted = true ∧
    ((zone.dests.look 23).map (·.loc) = some (.inZone 5 1880 (-60)) ∧
      (zone.dests.look 22).map (·.loc) = some (.inZone 7 1880 (-60)) ∧
      (zone.dests.look 41).map (·.loc) = some (.portals [12, 14]) ∧ (zone.nodes.look 12).map (·.current) = some .opened) ∧
    ((zone.nodes.look 0).any fun n => n.spec.kind = .stair && n.current = .opened && n.spec.deckLo ≤ 5 &&
      7 ≤ n.spec.deckHi) = true ∧
    (let shut : State := { zone with nodes := nodes.map fun e => (e.1, { e.2 with current := .closed }) };
      (∀ e ∈ shut.nodes, e.2.current = .closed) ∧
        (routeCalc shut.routeEnv corridor.position none [] 23 .empty).goal = some (.point 5 1880 (-60))) ∧
    (let r := routeCalc zone.routeEnv (some ⟨7, 1520, 40, 1, 6, 30⟩) none [] 41 .empty;
      r.goal = some (.portal 12 610) ∧ r.vertical = some (1, 650)) := by decide +kernel

/-- The clauses on the arrow: a target on the deck, one within the radius, a target that is a node, the own node of a
LANDING, and the pins that hold or yield. -/
theorem witness_RouteLaw_arrow :
    (let pos : Position := ⟨7, 1520, 40, 1, 6, 30⟩;
      let r := fun d own => routeCalc zone.routeEnv (some pos) own [] d .empty;
      (r 22 none).target = some (.point 7 1880 (-60)) ∧ ¬ (1880 - pos.x).natAbs + (pos.y + 60).natAbs ≤ pos.radius ∧
      (r 41 none).vertical = some (1, 650) ∧ (r 41 none).target = some (.node 1) ∧ (r 41 (some 1)).result = .here ∧
      zone.nodes.look 1 = some ⟨⟨.lift, 2, 15, 1600, 0, .opened⟩, .opened⟩ ∧
      (routeCalc zone.routeEnv (some { pos with x := 1880, y := -30 }) none [] 22 .empty).result = .here ∧
      (r 99 none).target = none) ∧
    (let pins : List Pin := [⟨23, 0, none, false⟩, ⟨22, 5, some 12, false⟩, ⟨22, 1, none, true⟩];
      let r := fun s : State => routeCalc s.routeEnv (some ⟨7, 1520, 40, 1, 6, 30⟩) none pins 22 .empty;
      (∃ a pin b, pins = a ++ pin :: b ∧ pin.dest = 22 ∧ pin.hold = false ∧ pin.via = some 12 ∧ ∀ q ∈ a, q.dest ≠ 22) ∧
      (r zone).result = .arrow 5 ∧ (r zone).pinApplied = true ∧ alarmed.muster.level = .muster ∧
      (r { zone with muster := alarmed.muster }).pinApplied = false ∧
      (r { zone with nodes := nodes.map fun e => (e.1, { e.2 with current := .closed }) }).pinApplied = false) := by
  refine ⟨by decide +kernel, ⟨[_], _, [_], rfl, by decide +kernel⟩, by decide +kernel⟩

theorem witness_AlarmInputs :
    (∀ raw ∈ [false, true],
      let s : State := { calm with
        clock := { calm.clock with u := 200 }
        muster := { calm.muster with drill := ⟨raw, !raw, some 0, false⟩ } }
      (s.muster.input .drill).debounce = some 0 ∧ 0 + 200 ≤ s.clock.u ∧ (s.muster.input .drill).raw = raw) ∧
    (∀ level ∈ [Level.normal, .restoring], level.rank < AlertLevel.drill.level.rank) ∧
    (∀ level ∈ [Level.drill, .muster], AlertLevel.drill.level.rank ≤ level.rank) := by decide +kernel

theorem witness_ModeSet :
    (∀ m ∈ ([0, 1, 2] : List Byte), calm.link.take ⟨0x20, 1, [m]⟩ = some (taken calm ⟨0x20, 1, [m]⟩) ∧
      alarmed.link.take ⟨0x20, 1, [m]⟩ = some (taken alarmed ⟨0x20, 1, [m]⟩)) ∧
    ([1] : Bytes).length = 1 ∧ 1 < u8 [2] 0 ∧ u8 [1] 0 ≤ 1 ∧ alarmed.muster.level = .muster ∧
    calm.muster.level = .normal := by decide +kernel

theorem witness_MusterRaise :
    (∀ m ∈ ([0, 1, 2, 3] : List Byte), calm.link.take ⟨0x21, 1, [m]⟩ = some (taken calm ⟨0x21, 1, [m]⟩) ∧
      alarmed.link.take ⟨0x21, 1, [m]⟩ = some (taken alarmed ⟨0x21, 1, [m]⟩)) ∧
    (u8 [0] 0 = 0 ∧ 2 < u8 [3] 0 ∧ u8 [1] 0 = 1 ∧ u8 [2] 0 = 2) ∧
    AlertLevel.drill.level.rank < alarmed.muster.level.rank ∧ AlertLevel.muster.level = alarmed.muster.level ∧
    calm.muster.level.rank < AlertLevel.drill.level.rank := by decide +kernel

theorem witness_AllClear :
    calm.link.take ⟨0x22, 1, []⟩ = some (taken calm ⟨0x22, 1, []⟩) ∧ calm.muster.level = .normal ∧
    (alarmed.link.take ⟨0x22, 1, []⟩ = some (taken alarmed ⟨0x22, 1, []⟩) ∧ alarmed.muster.level = .muster ∧
      alarmed.muster.general.reading = true) ∧
    (let s : State := { alarmed with muster := { alarmed.muster with general := .initial false } };
      s.link.take ⟨0x22, 1, []⟩ = some (taken s ⟨0x22, 1, []⟩) ∧ s.muster.level = .muster ∧
      s.muster.drill.reading = false ∧ s.muster.general.reading = false ∧ s.muster.level.alarmed = true ∧
      after (exec (.allClear 1 []) s) (fun t => t.muster.level.alarmed = false) = true) := by decide +kernel

theorem witness_MusterTimers :
    (∀ c ∈ ([⟨.muster, 0, 60000, 2, 0, false, false⟩, ⟨.muster, 0, 60000, 2, 0, true, false⟩,
        ⟨.muster, 0, 60000, 2, 0, false, true⟩] : List Coverage),
      let s : State := { alarmed with
        clock := { alarmed.clock with u := 60000 }, muster := { alarmed.muster with coverage := some c } }
      s.muster.coverage = some c ∧ c.deadline ≤ s.clock.u) ∧
    (let s : State := { alarmed with muster := { alarmed.muster with alertDue := ⟨none, none, none, some 0⟩ } };
      s.muster.alertDue.get 3 = some 0 ∧ 0 ≤ s.clock.u ∧ s.muster.level = AlertLevel.muster.level ∧
      (s.line 3).alert = none ∧ (s.line 3).exch = none ∧ (s.line 3).job = none) ∧
    (let s := sending { alarmed with muster := { alarmed.muster with alertDue := ⟨none, none, none, some 0⟩ } } 3
        (.generalAlert .muster) 127 false;
      s.muster.alertDue.get 3 = some 0 ∧ (s.line 3).alert = none ∧ (s.line 3).exch.isSome = true ∧
      (s.line 3).exch = some ⟨.generalAlert .muster, 127, false, false⟩ ∧ (s.line 3).job = none) ∧
    (let t := sending alarmed 3 .commit 200 false;
      let s : State := { t with
        muster := { t.muster with alertDue := ⟨none, none, none, some 0⟩ }
        lines := t.lines.set 3 { t.line 3 with alert := some .drill } };
      s.muster.alertDue.get 3 = some 0 ∧ s.muster.level = AlertLevel.muster.level ∧ (s.line 3).exch.isSome = true) ∧
    (∀ x, (alarmed.line 3).exch = some x → ∀ a, x.frame ≠ .generalAlert a) :=
  ⟨by decide +kernel, by decide +kernel, by decide +kernel, by decide +kernel, fun _ h => nomatch h⟩

/-- R105: a broadcast due while one is pending leaves one, with the later level. -/
theorem test_generalAlertDue_later :
    let t := sending alarmed 3 .commit 200 false
    after (exec (.generalAlertDue 3) { t with
        muster := { t.muster with alertDue := ⟨none, none, none, some 0⟩ }
        lines := t.lines.set 3 { t.line 3 with alert := some .drill } }) (fun t =>
      (t.line 3).alert = some .muster) = true := by decide +kernel

theorem witness_TimerRows :
    (let s : State := { calm with panels := [(70, turning70), (71, inState updating5 .updating)] };
      ((if s.muster.level.alarmed then none else (s.panels.look 70).bind fun p => p.content.rotation.bind (·.due)) =
          some 0 ∧
        (s.panels.look 72).bind (·.line.nextPoll) = none ∧ (s.panels.look 71).bind (·.line.nextPoll) = some 250 ∧
        ((s.panels.look 71).bind fun p => if p.line.state = .updating then p.line.deadline else none) = some 8000)) ∧
    (({ calm.muster with drill := ⟨true, false, some 0, false⟩ } : Muster).input .drill).debounce.map (· + 200) =
      some 200 ∧
    ((some (⟨.muster, 0, 60000, 2, 0, false, false⟩ : Coverage)).filter fun c => !c.short).map (·.deadline) =
      some 60000 ∧
    (⟨none, none, none, some 7⟩ : Four (Option Nat)).get 3 = some 7 ∧ ([8500, 8200] : List Nat).min? = some 8200 ∧
    (calm.line 0).sweepDue = none ∧
    (calm.reachable 0 ∧ calm.reachable 999 ∧ ¬ calm.reachable 1000) := by
  refine ⟨by decide +kernel, rfl, rfl, rfl, by decide +kernel, rfl, ?_, ?_, ?_⟩ <;>
    simp only [State.reachable] <;> decide +kernel

/-- Line 0 with doors 1 and 5 and a screen 10 (7.10), and a queue, all at run time 9 s. -/
def busy (states : LineState × LineState × LineState) (due : Option Nat) (l : LineUnit) : State :=
  let at' := fun (p : Panel) (st : LineState) => { inState p st with line := { (inState p st).line with nextPoll := due } }
  { calm with
    clock := { calm.clock with u := 9000 }
    panels := [(1, at' door5 states.1), (5, at' (quiet door5) states.2.1), (10, at' screen70 states.2.2)]
    lines := calm.lines.set 0 l }

def entries : List Entry := [⟨5, .alert, false⟩, ⟨1, .alert, true⟩, ⟨10, .content, false⟩]

theorem never : ∀ e ∈ (busy (.live, .updating, .live) none { LineUnit.initial with queue := entries, slots := 4 }).panels,
    e.2.line.nextPoll = none := by decide +kernel

/-- What the clauses on the lines ask of a state (`queueMade`, `State.decidedInOrder`): the panels in order of id, no
panel with two entries, and every queue in order of class, on a line with entries too. -/
theorem witness_linesDecided :
    (∀ s ∈ [calm, programme, busy (.live, .serving, .live) none { LineUnit.initial with queue := entries }],
      s.panels.sorted = true ∧ ∀ i, ((s.line i).queue.map (·.panel)).Nodup ∧ classOrdered (s.line i).queue) ∧
    (busy (.live, .serving, .live) none { LineUnit.initial with queue := entries }).line 0 =
      { LineUnit.initial with queue := entries } := by
  unfold classOrdered
  decide +kernel

/-- The clauses of the arbiter's order, each at a state of its own. -/
theorem witness_ArbiterOrder_grants :
    (let s := busy (.live, .live, .live) (some 9000) { LineUnit.initial with queue := entries };
      s.panels.sorted = true ∧ (s.panels.look 10).bind (·.line.nextPoll) = some 9000 ∧ 9000 ≤ s.clock.u ∧
      lineOf 10 = 0 ∧ (s.line 0).exch = none ∧ (s.line 0).job = none ∧ (s.line 0).alert = none) ∧
    (let s := busy (.live, .updating, .live) (some 9000) { LineUnit.initial with queue := entries };
      ∃ q, s.eligibleFirst 0 (fun e => e.cls = .alert) ⟨1, .alert, true⟩ q) ∧
    (let s := busy (.live, .live, .live) (some 9000) { LineUnit.initial with queue := entries };
      ∃ q, s.eligibleFirst 0 (fun e => e.cls = .alert) ⟨5, .alert, false⟩ q ∧ q.needsDraw = false) ∧
    (let s := busy (.live, .updating, .live) none { LineUnit.initial with queue := entries, slots := 4 };
      s.noneEligible 0 (fun e => e.cls = .alert) ∧ s.noneDue 0 (· = .updating) ∧
      ∃ q, s.eligibleFirst 0 (fun e => e.cls ≠ .alert) ⟨10, .content, false⟩ q ∧ q.needsDraw = true) := by
  refine ⟨by decide +kernel, ⟨_, [⟨5, .alert, false⟩], [⟨10, .content, false⟩], rfl, rfl, rfl, ⟨rfl, ?_⟩, ?_⟩,
    ⟨_, ⟨[], [⟨1, .alert, true⟩, ⟨10, .content, false⟩], rfl, rfl, rfl, ⟨rfl, ?_⟩, ?_⟩, ?_⟩, ?_, ?_,
    _, ⟨[⟨5, .alert, false⟩, ⟨1, .alert, true⟩], [], rfl, ?_, rfl, ⟨rfl, ?_⟩, ?_⟩, ?_⟩
  · decide +kernel
  · intro x hx _ q hq
    simp only [List.mem_singleton] at hx
    subst hx
    cases hq
    decide +kernel
  · decide +kernel
  · intro x hx
    simp at hx
  · decide +kernel
  · intro x hx ht q hq
    fin_cases hx
    · cases hq; decide +kernel
    · cases hq; decide +kernel
    · cases ht
  · exact fun e he _ _ d hd => absurd (hd.symm.trans (never e he)) (by simp)
  · decide
  · decide +kernel
  · intro x hx ht
    fin_cases hx <;> simp at ht
  · decide +kernel

/-- The clauses of the draw decision: a new entry, one that moves up, and one that keeps its place. -/
theorem witness_ArbiterOrder_decision :
    (let p := inState door5 .live;
      p.needsDraw = true ∧ p.visible.alert = false ∧ p.needClass = .content ∧
      (∀ e ∈ entries, e.panel ≠ 20) ∧ (∀ x ∈ entries, p.needClass.rank ≤ x.cls.rank) ∧
      (let q : List Entry := [⟨5, .alert, false⟩, ⟨10, .content, false⟩, ⟨1, .upkeep, true⟩, ⟨3, .upkeep, false⟩];
        (∃ x e y, q = x ++ e :: y ∧ e.panel = 1 ∧ (∀ z ∈ x ++ y, z.panel ≠ 1) ∧ e.cls.rank < p.needClass.rank ∧
          ∃ a b, x ++ y = a ++ b ∧ (∀ z ∈ a, p.needClass.rank ≤ z.cls.rank) ∧
            ∀ z, b.head? = some z → z.cls.rank < p.needClass.rank) ∧
        ∃ x e y, q = x ++ e :: y ∧ e.panel = 5 ∧ (∀ z ∈ x ++ y, z.panel ≠ 5) ∧ p.needClass.rank ≤ e.cls.rank)) ∧
    ((quiet door5).needsDraw = false ∧ (quiet door5).visible = (quiet door5).content.shown.set ∧
      (let p := quiet door5;
        ({ p with content := { p.content with inUse := ⟨true, false, false, false, true⟩ } } : Panel).visible.alert =
          true)) := by
  refine ⟨⟨by decide +kernel, by decide +kernel, by decide +kernel, by decide +kernel, by decide +kernel,
    ⟨[_, _], _, [_], rfl, rfl, by decide +kernel, by decide +kernel, [_, _], [_], rfl, by decide +kernel, ?_⟩,
    [], _, _, rfl, rfl, by decide +kernel, by decide +kernel⟩, by decide +kernel⟩
  intro z hz
  cases hz
  decide +kernel

/-- R91, R109: a new entry joins the tail of its class, and an entry of a lower class moves there. -/
theorem test_draw_decision :
    let l : LineUnit := { LineUnit.initial with queue := [⟨5, .alert, false⟩, ⟨10, .content, false⟩, ⟨1, .upkeep, true⟩] }
    let p := inState door5 .live
    (l.decideFor 20 p false).queue.map (·.panel) = [5, 10, 20, 1] ∧
    (l.decideFor 1 p false).queue = [⟨5, .alert, false⟩, ⟨10, .content, false⟩, ⟨1, .content, true⟩] ∧
    (l.decideFor 5 p true).queue.head? = some ⟨5, .alert, true⟩ := by decide +kernel

/-- A poll due at run time 9 s for every panel: the earliest is that of the lowest drop. -/
theorem dueFirst_of {s : State} {i : Fin 4} {st : LineState → Prop} {id : Nat} {p : Panel}
    (hp : (id, p) ∈ s.panels ∧ lineOf id = i ∧ st p.line.state ∧ p.line.nextPoll = some 9000 ∧ 9000 ≤ s.clock.u)
    (h : ∀ e ∈ s.panels, e.2.line.nextPoll = some 9000 ∧ id ≤ e.1) : s.dueFirst i st id p := by
  refine ⟨9000, hp.1, hp.2.1, hp.2.2.1, hp.2.2.2.1, hp.2.2.2.2, fun e he _ _ d hd _ => .inr ⟨?_, (h e he).2⟩⟩
  exact Option.some.inj ((h e he).1.symm.trans hd)

/-- No panel is in one of the states. -/
theorem noneDue_of {s : State} {i : Fin 4} {st : LineState → Prop} (h : ∀ e ∈ s.panels, ¬ st e.2.line.state) :
    s.noneDue i st := fun e he _ hs => absurd hs (h e he)

theorem witness_ArbiterOrder_polls :
    (let s := busy (.updating, .live, .absent) (some 9000) LineUnit.initial;
      (∃ p, s.dueFirst 0 (· = .updating) 1 p) ∧ s.noneEligible 0 fun e => e.cls = .alert) ∧
    (let s := busy (.live, .live, .absent) (some 9000) LineUnit.initial;
      s.noneDue 0 (· = .updating) ∧ ∃ p, s.dueFirst 0 (· = .live) 1 p) ∧
    (let s := busy (.fault, .serving, .absent) (some 9000) LineUnit.initial;
      s.noneDue 0 (· = .live) ∧ ∃ p, s.dueFirst 0 (fun x => x = .absent ∨ x = .fault) 1 p) ∧
    (let s := busy (.live, .live, .live) (some 9000) { LineUnit.initial with alert := some .drill };
      (s.line 0).exch = none ∧ (s.line 0).job = none ∧ (s.line 0).alert = some .drill) ∧
    ((sending (busy (.live, .live, .live) (some 9000) .initial) 0 .commit 5 false).line 0).exch.isSome = true := by
  refine ⟨⟨⟨_, dueFirst_of ⟨.head _, rfl, rfl, rfl, ?_⟩ ?_⟩, fun x hx => nomatch hx⟩,
    ⟨noneDue_of ?_, _, dueFirst_of ⟨.head _, rfl, rfl, rfl, ?_⟩ ?_⟩,
    ⟨noneDue_of ?_, _, dueFirst_of ⟨.head _, rfl, .inr rfl, rfl, ?_⟩ ?_⟩, by decide +kernel, by decide +kernel⟩ <;>
    decide +kernel

theorem witness_AnswerHandedOn :
    calm.panels.look 5 = some (quiet door5) ∧ (quiet door5).content.cabin = some ⟨none, 0, false⟩ ∧
      calm.panels.look 70 = some (quiet screen70) ∧ (quiet screen70).content.cabin = none ∧
      (let r : Readings := { buttons := [.dnd], presence := 0, ambient := 0 };
        .dnd ∈ r.buttons ∧ (quiet door5).line.state.queueable = true ∧
          ((calm.handOn 5 r).panels.look 5).any (·.needsDraw) = true) := by decide +kernel

/-- R59, R60: a DND button marks PLATE and queues the door. -/
theorem test_handOn_dnd :
    let t := calm.handOn 5 { buttons := [.dnd], presence := 0, ambient := 0 }
    (t.line 0).queue = [⟨5, .content, false⟩] ∧ (t.panels.look 5).any (·.content.dirty.plate.isSome) = true := by
  decide +kernel

/-- An exchange awaited of panel 5 on line 0. -/
theorem awaiting_job (p : Panel) (f : LineFrame) : (jobOf p f).awaiting 0 f 5 p := ⟨rfl, rfl, rfl⟩

theorem witness_SelectAnswer :
    (jobOf serving5 (.select false)).awaiting 0 (.select false) 5 serving5 ∧
    (∀ n ∈ [0, 8], (List.replicate n (1 : Byte)).length ≤ 8) ∧ (0 : Byte).toNat = serving5.decl.kind.code ∧
    (1 : Byte).toNat ≠ serving5.decl.kind.code := ⟨awaiting_job _ _, by decide, rfl, by decide⟩

theorem witness_JobAnswers :
    let g : Page := ⟨.nil, .nil, none, 0, false, 8, []⟩
    ((jobOf drawing5 (.page g 0)).awaiting 0 (.page g 0) 5 drawing5 ∧ drawing5.line.state = .serving ∧
      ((jobOf drawing5 (.page g 0)).line 0).job = some ⟨5, true, 0, none, false⟩ ∧
      drawing5.content.jobPage = some ⟨⟨true, false, false, false, false⟩, none, 0, false, .nil⟩) ∧
    (jobOf drawing5 .commit).awaiting 0 .commit 5 drawing5 ∧ (jobOf drawing5 .abort).awaiting 0 .abort 5 drawing5 :=
  ⟨⟨awaiting_job _ _, rfl, rfl, rfl⟩, awaiting_job _ _, awaiting_job _ _⟩

theorem witness_Completion :
    updating5.content.jobPage = some ⟨⟨true, false, false, false, false⟩, none, 0, false, .nil⟩ := rfl

theorem witness_PollAnswer :
    ∀ p ∈ [updating5, quiet door5, inState door5 .fault],
      let s := sending { calm with panels := [(5, p)] } 0 (.poll 0) 5 false
      s.awaiting 0 (.poll 0) 5 p ∧ (s.line 0).job = none ∧ ([1, 2] : Bytes).length ≤ 8 :=
  fun _ _ => ⟨⟨rfl, rfl, rfl⟩, rfl, by decide⟩

theorem test_PollAnswer_states :
    (updating5.line.state, (quiet door5).line.state, (inState door5 .fault).line.state) =
      (.updating, .live, .fault) ∧ (0 : Byte).getLsbD 0 = false ∧ (1 : Byte).getLsbD 0 = true := by decide +kernel

theorem witness_ProbeAnswer :
    ∀ st ∈ [LineState.absent, .fault],
      let s := sending { calm with panels := [(5, inState door5 st)] } 0 (.select true) 5 false
      s.awaiting 0 (.select true) 5 (inState door5 st) ∧ (s.line 0).job = none ∧
        (0 : Byte).toNat = (inState door5 st).decl.kind.code ∧ (3 : Byte).toNat ≠ (inState door5 st).decl.kind.code :=
  fun _ _ => ⟨⟨rfl, rfl, rfl⟩, rfl, rfl, show (3 : Byte).toNat ≠ 0 by decide⟩

/-- The exchange awaited in a small town of panel 5 alone. -/
def alone (p : Panel) (f : LineFrame) : State := sending { calm with panels := [(5, p)] } 0 f 5 false

/-- The same exchange with its answer missing. -/
def missing (s : State) : State :=
  { s with lines := s.lines.set 0 { s.line 0 with exch := (s.line 0).exch.map fun x => { x with missed := true } } }

theorem witness_Timeouts :
    (∀ f : LineFrame, (alone serving5 f).exchanging 0 f 5 serving5 false ∧
      (missing (alone serving5 f)).exchanging 0 f 5 serving5 true ∧ serving5.line.state = .serving) ∧
    (∀ n ∈ [0, 1, 2],
      let p : Panel := { quiet door5 with line := { (quiet door5).line with miss := n } }
      (alone p (.poll 0)).exchanging 0 (.poll 0) 5 p false ∧ ((alone p (.poll 0)).line 0).job = none ∧
        p.line.state = .live ∧ (p.line.miss < 2 ∨ 2 ≤ p.line.miss)) ∧
    ((alone updating5 (.poll 0)).exchanging 0 (.poll 0) 5 updating5 false ∧ updating5.line.state = .updating) ∧
    (∀ st ∈ [LineState.absent, .fault],
      (alone (inState door5 st) (.select true)).exchanging 0 (.select true) 5 (inState door5 st) false ∧
        (inState door5 st).line.state = st) ∧
    (let s := sending calm 3 (.generalAlert .drill) 127 false;
      ∀ x, (s.line 3).exch = some x → ∃ a, x.frame = .generalAlert a) ∧
    (let s : State := { calm with clock := { calm.clock with u := 8000 }, panels := [(5, updating5)] };
      s.panels.look 5 = some updating5 ∧ updating5.line.deadline = some 8000 ∧ 8000 ≤ s.clock.u) := by
  refine ⟨fun _ => ⟨⟨rfl, rfl, rfl⟩, ⟨rfl, rfl, rfl⟩, rfl⟩, fun n _ => ⟨⟨rfl, rfl, rfl⟩, rfl, rfl, by omega⟩,
    ⟨⟨rfl, rfl, rfl⟩, rfl⟩, fun _ _ => ⟨⟨rfl, rfl, rfl⟩, rfl⟩, fun x hx => ?_, by decide +kernel⟩
  cases hx
  exact ⟨_, rfl⟩

/-- A frame that is no good answer to a POLL: it is empty. -/
theorem witness_Timeouts_missing :
    let x : Exchange := ⟨.poll 0, 5, false, false⟩
    ((alone updating5 (.poll 0)).line 0).exch = some x ∧ ¬ x.answeredBy [] ∧
      Instr.pollAnswer 0 [] ∈ answerRows 0 [] ∧
      ((missing (alone updating5 (.poll 0))).line 0).exch = some { x with missed := true } :=
  ⟨rfl, fun ⟨_, h, _⟩ => (nomatch h), by decide, rfl⟩

theorem witness_WithdrawnExchange :
    ∀ f : LineFrame, ∀ j : Option Job, ∀ m : Bool,
      let s : State := { calm with
        panels := [(70, quiet screen70)]
        lines := calm.lines.set 0 { calm.line 0 with exch := some ⟨f, 5, true, m⟩, job := j } }
      (s.line 0).exch = some ⟨f, 5, true, m⟩ ∧ (⟨f, 5, true, m⟩ : Exchange).panel = 5 ∧
        (⟨f, 5, true, m⟩ : Exchange).orphan = true ∧ (⟨f, 5, true, m⟩ : Exchange).missed = m ∧
        (s.line 0).job = j := fun _ _ _ => ⟨rfl, rfl, rfl, rfl, rfl⟩

theorem witness_LineTimers :
    (let s : State := { calm with
        clock := { calm.clock with u := 8200 }
        lines := calm.lines.set 0 { calm.line 0 with slots := 2, held := [8500, 8200] } };
      8200 ∈ (s.line 0).held ∧ (∀ x ∈ (s.line 0).held, 8200 ≤ x) ∧ 8200 ≤ s.clock.u ∧ 0 < (s.line 0).slots) ∧
    (∀ k ∈ [40, 63],
      let s : State := { calm with lines := calm.lines.set 0 { calm.line 0 with sweepK := k, sweepDue := some 0 } }
      (s.line 0).sweepDue = some 0 ∧ 0 ≤ s.clock.u) ∧
    (calm.panels.look 63 = none ∧
      ∃ p, calm.panels.look 5 = some p ∧ p.decl.kind = .door ∧ p.line.state = .live ∧
        ∀ t, p.line.lastFull = some t → t + 72000000 < calm.clock.u) :=
  ⟨by decide +kernel, by decide +kernel, by decide +kernel, _, rfl, rfl, rfl, fun _ h => nomatch h⟩

theorem witness_LineReset :
    (∀ b ∈ ([0, 3, 4] : List Byte), polling5.link.take ⟨0x28, 1, [b]⟩ = some (taken polling5 ⟨0x28, 1, [b]⟩)) ∧
    3 < u8 [4] 0 ∧ u8 [3] 0 = (3 : Fin 4).val ∧ u8 [0] 0 = (0 : Fin 4).val := by decide +kernel

theorem witness_Queries :
    town.link.take ⟨0x30, 9, []⟩ = some (taken town ⟨0x30, 9, []⟩) ∧
    (∀ b ∈ ([[0, 1, 0], [70, 0, 4], [71, 0, 3], [70, 0, 3], [70, 0, 22], [70, 0, 128], [2, 0, 0], [1, 0, 0],
        [0, 0x9A, 1], [1, 0x9B, 1]] : List Bytes), b.length = 3 ∧
      programme.link.take ⟨0x31, 9, b⟩ = some (taken programme ⟨0x31, 9, b⟩) ∧
      programme.link.take ⟨0x32, 9, b⟩ = some (taken programme ⟨0x32, 9, b⟩) ∧
      programme.link.take ⟨0x33, 9, b⟩ = some (taken programme ⟨0x33, 9, b⟩)) ∧
    (programme.panels.look 71 = none ∧ programme.panels.look 70 = some screen70 ∧
      (programme.dests.look 22).isSome = true ∧ programme.event 0x19C = none) ∧
    (∃ a e b, programme.events = a ++ e :: b ∧ e.id = 0x19B ∧ ∀ x ∈ a, x.id ≠ 0x19B) ∧
    (∃ a x b, screen70.guideSlots ++ screen70.agendaSlots ++ [screen70.alertSlot] = a ++ x :: b ∧
      x.dest = some 22 ∧ ∀ y ∈ a, y.dest ≠ some 22) ∧
    ∀ x ∈ screen70.guideSlots ++ screen70.agendaSlots ++ [screen70.alertSlot], x.dest ≠ some 40 := by
  refine ⟨rfl, by decide +kernel, by decide +kernel, ⟨[event 410 60010 60050 30 15 .soon |> fun e =>
    { e with bookings := 1 }], _, [], rfl, rfl, by decide +kernel⟩, ⟨[], _, _, rfl, rfl, by decide +kernel⟩,
    by decide +kernel⟩

/-! The laws hold of a state that is not the reset state: the town with its programme, in service. -/

/-- The town in service with its programme, its agendas chosen, about to advance. -/
def lawful : State :=
  { ({ calm with
      clock := clockAt 3600059 0 60000 none
      events := programme.events
      bookings := programme.bookings } : State).agendas with
    pending := [.advance] }

theorem lawful_panels : ∀ e ∈ lawful.panels,
    e.2.decl.fitted.plate = true ∧ e.2.decl.fitted.alert = true ∧
      e.2.inUseOk lawful.muster.level lawful.clock.set ∧ (e.2.decl.fitted.agenda = false → e.2.content.rows = []) ∧
      e.2.content.shown.set.subset e.2.decl.fitted = true ∧
      (e.2.content.shown.set = .nil ∨ e.2.content.shown.set.plate = true) ∧ e.2.content.jobPage = none := by
  unfold Panel.inUseOk
  decide +kernel

theorem lawful_minute : lawful.clock.minuteLaw := by
  unfold Clock.minuteLaw
  decide +kernel

theorem lawful_kits (P : Kit → Prop) : lawful.everyKit P := by
  have hi : lawful.store.image = .erased := rfl
  have hc : lawful.store.checkpoint = none := rfl
  constructor
  · intro k crc h
    rw [hi] at h
    cases h
  · intro c h
    rw [hc] at h
    cases h

theorem lawful_tables : lawful.tablesLaw :=
  ⟨by decide +kernel, by decide +kernel, by decide +kernel, rfl, lawful_kits _⟩

theorem lawful_step : ∃ t, step lawful = .next t := ⟨_, rfl⟩

theorem lawful_sets : lawful.setsLaw := by
  refine ⟨fun e he => ?_, lawful_kits _⟩
  obtain ⟨h1, h2, h3, h4, h5, h6, h7⟩ := lawful_panels e he
  exact ⟨⟨h1, h2⟩, h3, h4, h5, h6, fun j hj => by rw [h7] at hj; cases hj⟩

theorem witness_StepKeepsRecords :
    (∃ t, step lawful = .next t) ∧ lawful.tablesLaw ∧ lawful.clockLaw ∧ lawful.linkLaw ∧ lawful.setsLaw ∧
      lawful.restLaw := by
  have hl : lawful.muster.level.alarmed = false := rfl
  have hp : lawful.clock.change = none := rfl
  refine ⟨lawful_step, lawful_tables, ⟨by decide +kernel, by decide +kernel, ?_, fun ch h => ?_, lawful_minute⟩,
    ?_, lawful_sets, fun e _ h => ?_⟩
  · unfold lawfulOffset
    decide +kernel
  · rw [hp] at h
    cases h
  · unfold State.linkLaw
    decide +kernel
  · rw [hl] at h
    cases h

/-- The town in service in a drill that covers one panel of two: door 5 shows the banner. -/
def drilling : State :=
  let shown5 : Panel := { quiet door5 with content := { (quiet door5).content with shown := ⟨.muster, some .drill, some 0, .nil⟩ } }
  { calm with
    panels := [(5, shown5), (70, quiet screen70)]
    muster := { calm.muster with level := .drill, coverage := some ⟨.drill, 0, 60000, 2, 1, false, false⟩ }
    pending := [.coverageDeadline] }

theorem drilling_kits (P : Kit → Prop) : drilling.everyKit P := by
  have hi : drilling.store.image = .erased := rfl
  have hc : drilling.store.checkpoint = none := rfl
  constructor
  · intro k crc h
    rw [hi] at h
    cases h
  · intro c h
    rw [hc] at h
    cases h

theorem drilling_tables : drilling.tablesLaw :=
  ⟨by decide +kernel, by decide +kernel, by decide +kernel, rfl, drilling_kits _⟩

theorem drilling_slots : drilling.slotLaw := by
  refine ⟨by decide +kernel, fun i => ?_⟩
  have hx : (drilling.line i).exch = none := by revert i; decide +kernel
  have hj : (drilling.line i).job = none := by revert i; decide +kernel
  refine ⟨by revert i; decide +kernel, by revert i; decide +kernel, ?_, ?_, ?_, ?_⟩
  · intro j h
    rw [hj] at h
    cases h
  · intro x h
    rw [hx] at h
    cases h
  · intro x p h
    rw [hx] at h
    cases h
  · intro id p h _
    have hl : p.line.state = .live := by
      have hall : ∀ q ∈ [5, 70].filterMap drilling.panels.look, q.line.state = .live := by decide +kernel
      refine hall p (List.mem_filterMap.mpr ⟨id, ?_, h⟩)
      by_contra hn
      simp only [List.mem_cons, List.not_mem_nil, or_false, not_or] at hn
      have hk : drilling.panels.look id = none := by
        simp [drilling, Table.look, Ne.symm hn.1, Ne.symm hn.2]
      rw [hk] at h
      cases h
    rw [hl]
    exact ⟨nofun, nofun⟩

theorem drilling_queues : drilling.queueLaw := by
  refine ⟨by decide +kernel, fun i => ?_⟩
  have hx : (drilling.line i).exch = none := by revert i; decide +kernel
  have hq : (drilling.line i).queue = [] := by revert i; decide +kernel
  refine ⟨by simp [hq], by simp [hq, classOrdered], by simp [hq], ?_⟩
  intro x h
  rw [hx] at h
  cases h

theorem witness_StepKeepsRecords_coverage :
    (∃ t, step drilling = .next t) ∧ drilling.tablesLaw ∧ drilling.queueLaw ∧ drilling.slotLaw ∧
      drilling.coverageLaw ∧ drilling.muster.coverage.isSome = true := by
  refine ⟨⟨_, rfl⟩, drilling_tables, drilling_queues, drilling_slots, fun c hc => ?_, rfl⟩
  cases hc
  decide +kernel

/-- A test of R80 for a result and a glyph. -/
def arrowCheck (r : Option ArrowResult) (g : Option Glyph) : Bool :=
  (match r with
    | some (.arrow n) => decide (n ≤ 7)
    | _ => true) &&
  match g with
    | some (.up n) => decide (1 ≤ n ∧ n ≤ 9)
    | some (.down n) => decide (1 ≤ n ∧ n ≤ 9)
    | none => true

theorem arrowShown_of {r : Option ArrowResult} {g : Option Glyph} (h : arrowCheck r g = true) : arrowShown r g := by
  simp only [arrowCheck, Bool.and_eq_true] at h
  refine ⟨fun n hr => ?_, fun n hg => ?_, fun n hg => ?_⟩
  · subst hr; simpa using h.1
  · subst hg; simpa using h.2
  · subst hg; simpa using h.2

theorem witness_StepKeepsRecords_arrows : (∃ t, step lawful = .next t) ∧ lawful.arrowLaw := by
  have h : ∀ e ∈ lawful.panels, (∀ x ∈ e.2.guideSlots ++ e.2.agendaSlots ++ [e.2.alertSlot],
        arrowCheck x.result x.glyph = true ∧ x.prev.all (· ≤ 7) = true) ∧
      (∀ x ∈ e.2.content.rows, arrowCheck x.arrow x.glyph = true) ∧ ∀ x ∈ e.2.pins, x.arrow ≤ 7 := by decide +kernel
  refine ⟨lawful_step, fun e he => ?_, lawful_kits _⟩
  obtain ⟨hs, hr, hp⟩ := h e he
  exact ⟨fun x hx => ⟨arrowShown_of (hs x hx).1, fun n hn => by simpa [hn] using (hs x hx).2⟩,
    fun x hx => arrowShown_of (hr x hx), hp⟩

theorem witness_StepKeepsQueues :
    (∃ t, step lawful = .next t) ∧ lawful.tablesLaw ∧ lawful.queueLaw ∧ (lawful.line 0).queue ≠ [] := by
  refine ⟨lawful_step, lawful_tables, ⟨lawful_tables.1, ?_⟩, by decide +kernel⟩
  have h : ∀ i, ((lawful.line i).queue.map (·.panel)).Nodup ∧
      (lawful.line i).queue.Pairwise (fun a b => b.cls.rank ≤ a.cls.rank) ∧
      (∀ e ∈ (lawful.line i).queue, lineOf e.panel = i ∧ (lawful.panels.look e.panel).isSome) ∧
      (lawful.line i).exch = none := by decide +kernel
  exact fun i => ⟨(h i).1, (h i).2.1, (h i).2.2.1, fun x hx => by rw [(h i).2.2.2] at hx; cases hx⟩

theorem witness_StepKeepsQueues_slots :
    (∃ t, step drilling = .next t) ∧ drilling.tablesLaw ∧ drilling.queueLaw ∧ drilling.slotLaw :=
  ⟨⟨_, rfl⟩, drilling_tables, drilling_queues, drilling_slots⟩

theorem witness_StepKeepsProgramme :
    (∃ t, step lawful = .next t) ∧ lawful.tablesLaw ∧ lawful.clock.minuteLaw ∧ lawful.bookingLaw ∧
      eventOrdered lawful.events ∧ lawful.agendaLaw ∧ lawful.bookings ≠ [] := by
  refine ⟨lawful_step, lawful_tables, lawful_minute, ⟨by decide +kernel, by decide +kernel, by decide +kernel,
    by decide +kernel, by decide +kernel, by decide +kernel, fun id => ?_⟩, ?_, ?_, by decide +kernel⟩
  · exact le_trans (List.length_filter_le _ _) (by decide +kernel)
  · unfold eventOrdered
    decide +kernel
  · have h : ∀ e ∈ lawful.panels, e.2.decl.fitted.agenda = true →
        e.2.content.rows = lawful.agendaRows e.1 e.2 := by decide +kernel
    exact h

end Sys2Proof.Tests
end

section
/-! PROOFS. Requests that a block answers without touching a line, and the family of zone geometry and declarations:
ZONE_SET (R4) and the text of a phrase (R18). -/

namespace Sys2Proof.Machine

/-! ### A request that leaves the lines alone -/

/-- The owning block answers with a code and fields and touches no line: the arbiter has nothing to pick, and the reply
is all that is added to what the block made of the state. -/
theorem State.request_settle_of_answer {s t : State} {f : Frame} {l : Link} {b : Bool}
    {own : State → State × Answer} {c : Code} {x : ReplyBody} (htake : s.link.take f = some l) (hlen : b = true)
    (hown : own { s with link := l } = (t, some (c, x))) (hlines : t.lines = s.lines) :
    (s.request f b own).settle s = { t with link := t.link.reply ⟨replyKind f.kind, f.tag, c, x⟩ } := by
  subst hlen
  rw [State.request_of_take htake, State.runTaken_answer hown]
  exact State.settle_same hlines

/-- The owning block refuses: the reply with the code alone is the only change. -/
theorem State.request_settle_of_refuse {s : State} {f : Frame} {l : Link} {b : Bool}
    {own : State → State × Answer} {c : Code} (htake : s.link.take f = some l) (hlen : b = true)
    (hown : own { s with link := l } = refuse { s with link := l } c) :
    (s.request f b own).settle s = s.replied l (replyKind f.kind) f.tag c .empty :=
  State.request_settle_of_answer htake hlen hown rfl

/-- With no checkpoint in flight, a kit request's own part runs (R2). -/
theorem State.unlessBusy_of_idle {s : State} (h : s.store.checkpoint = none) (own : State × Answer) :
    s.unlessBusy own = own := by
  simp [State.unlessBusy, State.busy, h]

/-! ### ZONE_SET (R4) -/

theorem clamp_eq_max_min {lo hi : Nat} (h : lo ≤ hi) (v : Nat) : clamp lo hi v = max lo (min v hi) := by
  unfold clamp
  split_ifs <;> omega

theorem sweepOrderOf_of_le {n : Nat} (h : n ≤ 1) :
    sweepOrderOf n = some (if n = 0 then .sequential else .interleaved) := by
  obtain rfl | rfl : n = 0 ∨ n = 1 := by omega
  · rfl
  · rfl

theorem sweepOrderOf_of_gt : ∀ {n : Nat}, 1 < n → sweepOrderOf n = none
  | _ + 2, _ => rfl

/-- The seven clamped parameters as `max` and `min` say them (R4). -/
theorem takenParams_eq (b : Bytes) (o : SweepOrder) : takenParams b o =
    { zone := u8 b 0
      primaryLang := u8 b 1
      hysteresis := min (u8 b 2) 8
      runTime := max 10 (min (u16 b 3) 600)
      rest1 := max 10 (min (u16 b 5) 3600)
      rest2 := max 60 (min (u16 b 7) 14400)
      dwell := max 5 (min (u8 b 9) 60)
      sweepInterval := max 10 (min (u16 b 10) 600)
      sweepOrder := o
      coverageDeadline := max 10 (min (u16 b 13) 300) } := by
  simp [takenParams, clamp_eq_max_min]

theorem ZoneParams.asSent_iff (z : ZoneParams) (b : Bytes) : z.asSent b = true ↔
    z.hysteresis = u8 b 2 ∧ z.runTime = u16 b 3 ∧ z.rest1 = u16 b 5 ∧ z.rest2 = u16 b 7 ∧ z.dwell = u8 b 9 ∧
      z.sweepInterval = u16 b 10 ∧ z.coverageDeadline = u16 b 13 := by
  simp [ZoneParams.asSent, and_assoc]

/-- The reply is DONE when no parameter moved, and otherwise ADJUSTED with the seven taken values (R4). -/
theorem ZoneParams.reply_eq (z : ZoneParams) (b : Bytes) (kind tag : Byte) :
    (⟨kind, tag, (z.answer b).1, (z.answer b).2⟩ : Reply) =
      if z.hysteresis = u8 b 2 ∧ z.runTime = u16 b 3 ∧ z.rest1 = u16 b 5 ∧ z.rest2 = u16 b 7 ∧ z.dwell = u8 b 9 ∧
          z.sweepInterval = u16 b 10 ∧ z.coverageDeadline = u16 b 13 then ⟨kind, tag, .done, .empty⟩
      else ⟨kind, tag, .adjusted,
        .zone z.hysteresis z.runTime z.rest1 z.rest2 z.dwell z.sweepInterval z.coverageDeadline⟩ := by
  simp only [ZoneParams.answer, z.asSent_iff b]
  split <;> rfl

section
variable {b : Bytes} {s : State}

/-- A wrong primary language or sweep order (R4). -/
theorem State.ownZoneSet_refuses (hidle : s.store.checkpoint = none) (h : ¬ (u8 b 1 ≤ 7 ∧ u8 b 12 ≤ 1)) :
    s.ownZoneSet b = refuse s .badValue := by
  rw [State.ownZoneSet, State.unlessBusy_of_idle hidle]
  by_cases hlang : 7 < u8 b 1
  · rw [if_pos hlang]
  · have horder : 1 < u8 b 12 := by omega
    rw [if_neg hlang, sweepOrderOf_of_gt horder]

/-- A primary language and a sweep order in their ranges: the record is replaced as a whole (R4). -/
theorem State.ownZoneSet_takes (hidle : s.store.checkpoint = none) (hlang : u8 b 1 ≤ 7) (horder : u8 b 12 ≤ 1) :
    s.ownZoneSet b =
      let z := takenParams b (if u8 b 12 = 0 then .sequential else .interleaved)
      ({ s with params := z }, some (z.answer b)) := by
  rw [State.ownZoneSet, State.unlessBusy_of_idle hidle, if_neg (by omega), sweepOrderOf_of_le horder]

end

theorem replyKind_zoneSet : replyKind Kind.zoneSet = 0x81 := by decide

section
variable {tag : Byte} {body : Bytes} {s : State} {l : Link}

theorem exec_zoneSet_refused (htake : s.link.take ⟨Kind.zoneSet, tag, body⟩ = some l) (hlen : body.length = 15)
    (hidle : s.store.checkpoint = none) (h : ¬ (u8 body 1 ≤ 7 ∧ u8 body 12 ≤ 1)) :
    exec (.zoneSet tag body) s = .next (s.replied l 0x81 tag .badValue .empty) := by
  have hown := State.ownZoneSet_refuses (s := { s with link := l }) hidle h
  have hrun := State.request_settle_of_refuse htake (decide_eq_true hlen) hown
  rw [replyKind_zoneSet] at hrun
  exact congrArg Host.Outcome.next hrun

theorem exec_zoneSet_taken (htake : s.link.take ⟨Kind.zoneSet, tag, body⟩ = some l) (hlen : body.length = 15)
    (hidle : s.store.checkpoint = none) (hlang : u8 body 1 ≤ 7) (horder : u8 body 12 ≤ 1) :
    let z := takenParams body (if u8 body 12 = 0 then .sequential else .interleaved)
    exec (.zoneSet tag body) s = .next
      { s with params := z, link := l.reply ⟨0x81, tag, (z.answer body).1, (z.answer body).2⟩ } := by
  have hown := State.ownZoneSet_takes (s := { s with link := l }) hidle hlang horder
  have hrun := State.request_settle_of_answer htake (decide_eq_true hlen) hown rfl
  rw [replyKind_zoneSet] at hrun
  exact congrArg Host.Outcome.next hrun

end

/-- Settles O14: a body is refused or taken by its language and sweep order, and a taken one is answered by whether
its parameters are as they were sent. -/
theorem zoneSet : Obligations.ZoneSet := by
  intro tag body s l htake hlen hidle h run rest1 rest2 dwell sweep deadline
  by_cases hgood : u8 body 1 ≤ 7 ∧ u8 body 12 ≤ 1
  case neg => rw [if_neg hgood, exec_zoneSet_refused htake hlen hidle hgood]
  case pos =>
    rw [if_pos hgood, exec_zoneSet_taken htake hlen hidle hgood.1 hgood.2]
    rw [ZoneParams.reply_eq, takenParams_eq]

/-! ### The text of a phrase (R18) -/

section
variable {p : Panel}

/-- A door shows its cabin's language (R58). -/
theorem Panel.wantedLang_of_cabin {c : Cabin} (h : p.content.cabin = some c) : p.wantedLang = c.lang := by
  simp [Panel.wantedLang, h]

/-- A screen shows the language its rotation stands at (R61). -/
theorem Panel.wantedLang_of_rotation {r : Rotation} (hc : p.content.cabin = none)
    (hr : p.content.rotation = some r) : p.wantedLang = p.decl.langs.getD r.index 0 := by
  simp [Panel.wantedLang, hc, hr]

end

/-- The muster page begins with the primary language, whether or not the panel's own follows (R94). -/
theorem State.alertLangs_head (s : State) (p : Panel) : (s.alertLangs p).head? = some s.params.primaryLang := by
  unfold State.alertLangs
  split
  · rfl
  · rfl

section
variable {s : State} {id lang : Nat}

@[simp] theorem State.phrase_zero (s : State) (lang : Nat) : s.phrase 0 lang = [] := rfl

theorem State.phrase_of_wanted {t : Bytes} (hid : id ≠ 0) (h : s.phrases.look (phraseKey id lang) = some t) :
    s.phrase id lang = t := by
  simp [State.phrase, hid, h]

theorem State.phrase_of_primary {t : Bytes} (hid : id ≠ 0) (hw : s.phrases.look (phraseKey id lang) = none)
    (hp : s.phrases.look (phraseKey id s.params.primaryLang) = some t) : s.phrase id lang = t := by
  simp [State.phrase, hid, hw, hp]

theorem State.phrase_of_missing (hid : id ≠ 0) (hw : s.phrases.look (phraseKey id lang) = none)
    (hp : s.phrases.look (phraseKey id s.params.primaryLang) = none) : s.phrase id lang = phraseFallback id := by
  simp [State.phrase, hid, hw, hp]

end

/-- A phrase id is at most 4095, so four decimal digits are its whole numeral. -/
theorem phraseFallback_digits {id : Nat} (h : id ≤ 4095) : ∃ a b c d : Nat,
    a < 10 ∧ b < 10 ∧ c < 10 ∧ d < 10 ∧ id = 1000 * a + 100 * b + 10 * c + d ∧
    phraseFallback id = [0x23, BitVec.ofNat 8 (0x30 + a), BitVec.ofNat 8 (0x30 + b), BitVec.ofNat 8 (0x30 + c),
      BitVec.ofNat 8 (0x30 + d)] :=
  ⟨id / 1000 % 10, id / 100 % 10, id / 10 % 10, id % 10, by omega, by omega, by omega, by omega, by omega, rfl⟩

/-- Settles O23: the three languages, and the three places of R18 in their order. -/
theorem phraseText : Obligations.PhraseText := by
  intro s id lang _
  refine ⟨fun p => ⟨?_, ?_, s.alertLangs_head p⟩, s.phrase_zero lang, fun hid => ⟨?_, fun hw => ⟨?_, ?_⟩⟩⟩
  · intro c hc
    exact Panel.wantedLang_of_cabin hc
  · intro r hc hr
    exact Panel.wantedLang_of_rotation hc hr
  · intro t hw
    exact State.phrase_of_wanted hid hw
  · intro t hp
    exact State.phrase_of_primary hid hw hp
  · intro hp hmax
    rw [State.phrase_of_missing hid hw hp]
    exact phraseFallback_digits hmax

end Sys2Proof.Machine
end

section
/-! PROOFS. The family of the ship clock: what the four resets make of the clock unit (R29). -/

namespace Sys2Proof.Machine

/-! ### A request whose block leaves the clock alone -/

section
variable {own : State → State × Answer}

/-- The length rule and the reply touch the link unit only: the clock is what the owning block makes of it. -/
theorem State.runTaken_keeps_clock (hown : ∀ s, (own s).1.clock = s.clock) (s : State) (f : Frame) (lengthOk : Bool) :
    (s.runTaken f lengthOk own).clock = s.clock := by
  cases lengthOk with
  | false => rw [State.runTaken_badLength]
  | true =>
    have hclock := hown s
    simp only [State.runTaken, if_true]
    split
    · exact hclock
    · exact hclock

theorem State.request_keeps_clock (hown : ∀ s, (own s).1.clock = s.clock) (s : State) (f : Frame) (lengthOk : Bool) :
    (s.request f lengthOk own).clock = s.clock := by
  cases htake : s.link.take f with
  | none => rw [State.request_of_wait htake]
  | some l => rw [State.request_of_take htake, State.runTaken_keeps_clock hown]

end

/-! ### RESTART, LINE_RESET and CHECKPOINT (R168, R124, R165) -/

theorem State.ownRestart_clock (s : State) : s.ownRestart.1.clock = s.clock := by
  simp [State.ownRestart]

theorem State.ownLineReset_clock (b : Bytes) (s : State) : (s.ownLineReset b).1.clock = s.clock := by
  unfold State.ownLineReset
  split
  · simp
  · rfl

theorem State.ownCheckpoint_clock (s : State) : s.ownCheckpoint.1.clock = s.clock := by
  unfold State.ownCheckpoint
  split
  · rfl
  · simp

section
variable (tag : Byte) (body : Bytes) (s : State)

theorem exec_restart_keeps_clock : ∃ t, exec (.restart tag body) s = .next t ∧ t.clock = s.clock := by
  refine ⟨_, rfl, ?_⟩
  simp [State.request_keeps_clock State.ownRestart_clock]

theorem exec_lineReset_keeps_clock : ∃ t, exec (.lineReset tag body) s = .next t ∧ t.clock = s.clock :=
  ⟨_, rfl, State.request_keeps_clock (State.ownLineReset_clock body) s _ _⟩

theorem exec_checkpoint_keeps_clock : ∃ t, exec (.checkpoint tag body) s = .next t ∧ t.clock = s.clock :=
  ⟨_, rfl, State.request_keeps_clock State.ownCheckpoint_clock s _ _⟩

end

/-! ### START_UP (R167) -/

/-- The free transmitter of a link unit at start-up begins the first report at once (R158). -/
theorem Link.initial_report (rateHigh : Bool) (r : Report) : (Link.initial rateHigh).report r =
    { Link.initial rateHigh with tx := some (.report false r), stamp := 1 } := rfl

/-- A boot creates one report, the KIT report, whether the image is valid or not. -/
theorem State.boot_link (s : State) (readBack : Bytes) : ∃ kit panels nodes dests texts why,
    (s.boot readBack).link = s.link.report (.kit kit panels nodes dests texts why) := by
  unfold State.boot
  split
  · exact ⟨_, _, _, _, _, _, rfl⟩
  · exact ⟨_, _, _, _, _, _, rfl⟩

theorem State.boot_clock (s : State) (readBack : Bytes) : (s.boot readBack).clock = s.clock := by
  unfold State.boot
  split
  · rfl
  · rfl

/-- At a start-up the clock is at its start values, the report queue is empty, and the frame being sent is the KIT
report. -/
theorem exec_startUp_clock_link (rateHigh drillRaw generalRaw : Bool) (readBack : Bytes) (s : State) :
    ∃ t, exec (.startUp rateHigh drillRaw generalRaw readBack) s = .next t ∧ t.clock = .initial ∧
      t.link.reports = [] ∧ ∃ kit panels nodes dests texts why,
        t.link.tx = some (.report false (.kit kit panels nodes dests texts why)) := by
  obtain ⟨kit, panels, nodes, dests, texts, why, hlink⟩ :=
    (s.cold rateHigh drillRaw generalRaw readBack).boot_link readBack
  have hlink := hlink.trans (Link.initial_report rateHigh _)
  refine ⟨_, rfl, State.boot_clock _ _, ?_, kit, panels, nodes, dests, texts, why, ?_⟩
  · rw [hlink]; rfl
  · rw [hlink]

/-- Settles O12: start-up puts the clock at its start values and sends the KIT report alone; no block of the other
three requests touches the clock. -/
theorem clockAtResets : Obligations.ClockAtResets := by
  intro s
  refine ⟨fun rate drill general readBack => ?_, fun tag body => exec_restart_keeps_clock tag body s,
    fun tag body => exec_lineReset_keeps_clock tag body s, fun tag body => exec_checkpoint_keeps_clock tag body s⟩
  obtain ⟨t, hexec, hclock, hreports, _, _, _, _, _, _, htx⟩ := exec_startUp_clock_link rate drill general readBack s
  refine ⟨t, hexec, hclock, ?_, ?_⟩
  · simp [hreports]
  · simp [htx]

end Sys2Proof.Machine
end

section
/-! PROOFS. The family of routes and arrows: the arrow arithmetic (R75 to R77). -/

namespace Sys2Proof.Machine

/-! ### The angle from the axis (R75) -/

theorem fineAngle_le (a b : Nat) : fineAngle a b ≤ 32 := by
  unfold fineAngle
  split
  next hba => exact Nat.div_le_of_le_mul (by omega)
  next hba => exact Nat.div_le_of_le_mul (by omega)

theorem fineAngle_self {a : Nat} (ha : a ≠ 0) : fineAngle a a = 32 := by
  rw [fineAngle, if_pos le_rfl, Nat.mul_div_cancel _ (Nat.pos_of_ne_zero ha)]

theorem thetaAngle_le (a b : Nat) : thetaAngle a b ≤ 64 := by
  have hfine := fineAngle_le a b
  unfold thetaAngle
  split
  · omega
  · omega

theorem thetaAngle_self {a : Nat} (ha : a ≠ 0) : thetaAngle a a = 32 := by
  rw [thetaAngle, if_pos le_rfl, fineAngle_self ha]

/-! ### The bearing, one equation per row of R75's table -/

section
variable {dx ds : Int}

theorem bearingOf_nonneg_nonneg (hdx : 0 ≤ dx) (hds : 0 ≤ ds) :
    bearingOf dx ds = thetaAngle dx.natAbs ds.natAbs := by
  simp [bearingOf, hdx, hds]

theorem bearingOf_neg_nonneg (hdx : dx < 0) (hds : 0 ≤ ds) :
    bearingOf dx ds = 128 - thetaAngle dx.natAbs ds.natAbs := by
  simp [bearingOf, hdx.not_ge, hds]

theorem bearingOf_nonpos_neg (hdx : dx ≤ 0) (hds : ds < 0) :
    bearingOf dx ds = 128 + thetaAngle dx.natAbs ds.natAbs := by
  simp [bearingOf, hdx, hds.not_ge]

theorem bearingOf_pos_neg (hdx : 0 < dx) (hds : ds < 0) :
    bearingOf dx ds = (256 - thetaAngle dx.natAbs ds.natAbs) % 256 := by
  simp [bearingOf, hdx.not_ge, hds.not_ge]

end

theorem bearingOf_le (dx ds : Int) : bearingOf dx ds ≤ 255 := by
  have htheta := thetaAngle_le dx.natAbs ds.natAbs
  rcases le_or_gt 0 ds with hds | hds
  · rcases le_or_gt 0 dx with hdx | hdx
    · rw [bearingOf_nonneg_nonneg hdx hds]; omega
    · rw [bearingOf_neg_nonneg hdx hds]; omega
  · rcases le_or_gt dx 0 with hdx | hdx
    · rw [bearingOf_nonpos_neg hdx hds]; omega
    · rw [bearingOf_pos_neg hdx hds]; omega

/-! ### Differences on the circle of 256 (R76, R77) -/

/-- The model subtracts on naturals; the 256 it adds first keeps the difference from being cut off at 0. -/
theorem relativeBearing_eq_emod (b h : Nat) : (relativeBearing b h : Int) = ((b : Int) - h) % 256 := by
  unfold relativeBearing
  omega

/-- Both sides of the circular distance are relative bearings, of the bearing from the arrow and of the arrow from it. -/
theorem arrowDistance_eq_min_relativeBearing (rb p : Nat) :
    arrowDistance rb p = min (relativeBearing rb (32 * p)) (relativeBearing (32 * p) rb) := rfl

theorem arrowDistance_eq_min_emod (rb p : Nat) :
    (arrowDistance rb p : Int) = min (((rb : Int) - 32 * p) % 256) ((32 * p - (rb : Int)) % 256) := by
  rw [arrowDistance_eq_min_relativeBearing, Nat.cast_min, relativeBearing_eq_emod, relativeBearing_eq_emod]
  push_cast
  rfl

theorem rawArrow_le (rb : Nat) : rawArrow rb ≤ 7 := by
  unfold rawArrow
  omega

/-! ### The computed arrow (R77) -/

section
variable (hyst h : Nat) (dx ds : Int)

theorem arrowCalc_computed_none : (arrowCalc hyst h dx ds none).computed = (arrowCalc hyst h dx ds none).raw := rfl

theorem arrowCalc_computed_some (p : Nat) :
    let c := arrowCalc hyst h dx ds (some p)
    c.computed = if arrowDistance c.relative p ≤ 16 + hyst then p else c.raw := by
  simp [arrowCalc]

end

/-- Settles O35: the figures of the calculation are the functions of R75 and R76, whose equations stand above, and the
model's natural distance is the circular distance of R77. -/
theorem arrowArithmetic : Obligations.ArrowArithmetic := by
  intro dx ds h hyst prev hne _ _
  refine ⟨rfl, fineAngle_le _ _, rfl, thetaAngle_le _ _, fun hab => ?_, bearingOf_nonneg_nonneg, bearingOf_neg_nonneg,
    bearingOf_nonpos_neg, bearingOf_pos_neg, bearingOf_le _ _, relativeBearing_eq_emod _ _, rfl, rawArrow_le _, ?_, ?_⟩
  · have ha : dx.natAbs ≠ 0 := by omega
    change thetaAngle dx.natAbs ds.natAbs = 32
    rw [← hab, thetaAngle_self ha]
  · rintro rfl
    exact arrowCalc_computed_none hyst h dx ds
  · rintro p rfl
    dsimp only
    rw [arrowCalc_computed_some, ← arrowDistance_eq_min_emod]
    norm_cast

end Sys2Proof.Machine
end

section
/-! PROOFS. The family of the control link: the report queue and its lost flag (R159). -/

namespace Sys2Proof.Machine

/-! ### Which report a MUSTER report removes -/

/-- Behind a run of MUSTER reports, the oldest report of another kind goes. -/
theorem dropOldestOther_append_cons {a b : List (Stamped Report)} {x : Stamped Report}
    (ha : ∀ y ∈ a, y.item.isMuster = true) (hx : x.item.isMuster = false) :
    dropOldestOther (a ++ x :: b) = some (a ++ b) := by
  induction a with
  | nil => simp [dropOldestOther, hx]
  | cons y ys ih =>
    obtain ⟨hy, hys⟩ := List.forall_mem_cons.mp ha
    simp [dropOldestOther, hy, ih hys]

/-- Among MUSTER reports alone there is no report of another kind. -/
theorem dropOldestOther_of_all_muster {q : List (Stamped Report)} (hq : ∀ y ∈ q, y.item.isMuster = true) :
    dropOldestOther q = none := by
  induction q with
  | nil => rfl
  | cons y ys ih =>
    obtain ⟨hy, hys⟩ := List.forall_mem_cons.mp hq
    simp [dropOldestOther, hy, ih hys]

/-! ### A report that is created -/

section
variable {l : Link} {r x : Stamped Report} {a b : List (Stamped Report)}

theorem Link.enqueue_of_room (h : l.reports.length < 64) : l.enqueue r = { l with reports := l.reports ++ [r] } :=
  if_pos h

theorem Link.enqueue_of_full (h : l.reports.length = 64) : l.enqueue r = l.overflowReport r :=
  if_neg (by simp [h, Config.reportQueueMax])

theorem Link.overflowReport_of_other (hr : r.item.isMuster = false) : l.overflowReport r = { l with lost := true } := by
  simp [Link.overflowReport, hr]

theorem Link.overflowReport_of_muster (hr : r.item.isMuster = true) (hq : l.reports = a ++ x :: b)
    (ha : ∀ y ∈ a, y.item.isMuster = true) (hx : x.item.isMuster = false) :
    l.overflowReport r = { l with reports := a ++ b ++ [r], lost := true } := by
  have hdrop : dropOldestOther l.reports = some (a ++ b) := hq ▸ dropOldestOther_append_cons ha hx
  simp [Link.overflowReport, hr, hdrop]

theorem Link.overflowReport_of_all_muster (hr : r.item.isMuster = true) (hq : l.reports = x :: b)
    (hall : ∀ y ∈ l.reports, y.item.isMuster = true) :
    l.overflowReport r = { l with reports := b ++ [r], lost := true } := by
  have hdrop : dropOldestOther l.reports = none := dropOldestOther_of_all_muster hall
  have htail : l.reports.drop 1 = b := by rw [hq]; rfl
  simp only [Link.overflowReport, hr, hdrop, htail, if_true]

end

/-! ### The frame that a free transmitter begins -/

section
variable {l : Link} (htx : l.tx = none)
include htx

theorem Link.pump_of_next_report {r : Stamped Report} {rest : List (Stamped Report)}
    (h : l.next = some (.report r rest)) :
    l.pump = { l with reports := rest, tx := some (.report l.lost r.item), lost := false } := by
  simp [Link.pump, htx, h]

theorem Link.pump_of_next_waiting {w : Stamped Reply} (h : l.next = some (.waiting w)) :
    l.pump = { l with tx := some (.reply w.item) } := by
  simp [Link.pump, htx, h]

end

/-- Settles O9: the first four clauses are the branches of a report's creation, the last two what a free transmitter
begins. -/
theorem reportQueue : Obligations.ReportQueue := by
  intro l r
  refine ⟨Link.enqueue_of_room, fun hfull hr => ?_, fun a x b hfull hr hq ha hx => ?_, fun x b hfull hr hq hall => ?_,
    fun x b htx hnext => Link.pump_of_next_report htx hnext, fun w htx hnext => ?_⟩
  · rw [Link.enqueue_of_full hfull, Link.overflowReport_of_other hr]
  · rw [Link.enqueue_of_full hfull, Link.overflowReport_of_muster hr hq ha hx]
  · rw [Link.enqueue_of_full hfull, Link.overflowReport_of_all_muster hr hq hall]
  · rw [Link.pump_of_next_waiting htx hnext]
    exact ⟨rfl, rfl⟩

end Sys2Proof.Machine
end
